-- ==== Sys2Proof/Word.lean ====
section
/-!
DEFINITION. The word types of the block: register words, binary32 bit patterns, bus words and event words.
-/

namespace Sys2Proof

/-- A host-visible register or a bus data word: 32 bits (00_scope.md R7). -/
abbrev Word := BitVec 32

/-- The bits of an IEEE 754 binary32 value: bit 31 the sign, bits [30:23] the biased exponent, bits [22:0] the
fraction (20_memory.md R155).  Its arithmetic is in Machine/Float.lean. -/
abbrev F32 := BitVec 32

/-- A byte of a RAM, as the byte bridge of 20_memory.md R155 numbers the bytes of a word. -/
abbrev Byte := BitVec 8

/-- A host byte address: 20 bits (20_memory.md R150). -/
abbrev BusAddr := BitVec 20

/-- A bus transaction `T = {RW[52], ADDR[51:32], DATA[31:0]}` (30_encoding.md R206). -/
abbrev BusWord := BitVec 53

/-- An event word (30_encoding.md R200). -/
abbrev EventWord := BitVec 24

end Sys2Proof
end

