-- ==== Sys2Proof/Config.lean ====
section
/-!
DEFINITION. What an instance of the block fixes (00_scope.md R6) and the values the spec leaves free.

The sizes, limits and controller numbers are plain data, a `Params`; the machine's state carries its instance's
`Params`, so that the model is every legal instance at once.  The free values are opaque constants without a body:
nothing in Lean can evaluate one, and a theorem about one holds for every value it could have.
-/

namespace Sys2Proof

/-- The implementation parameters of 00_scope.md R6 that are numbers. -/
structure Params where
  /-- number of voices -/
  voiceMax : Nat
  /-- oscillator slots per layer -/
  oscMax : Nat
  /-- number of layer presets -/
  numPresets : Nat
  /-- delay ring capacity in 32-bit words -/
  delayCap : Nat
  /-- visualization ring capacity in words -/
  visCap : Nat
  /-- command queue depth in events -/
  cmdqDepth : Nat
  /-- largest frame count of one render -/
  nmax : Nat
  /-- lowest legal sample rate, Hz -/
  srMin : Nat
  /-- highest legal sample rate, Hz -/
  srMax : Nat
  /-- controller number that selects the waveform -/
  ccWaveNum : BitVec 7
  /-- controller number that selects the layer preset -/
  ccLayerNum : BitVec 7
  deriving DecidableEq, Repr

/-- The legal ranges of 00_scope.md R6. -/
abbrev Params.legal (P : Params) : Prop :=
  (1 ≤ P.voiceMax ∧ P.voiceMax ≤ 32) ∧ (2 ≤ P.oscMax ∧ P.oscMax ≤ 8) ∧ (1 ≤ P.numPresets ∧ P.numPresets ≤ 8) ∧
  (1 ≤ P.delayCap ∧ P.delayCap ≤ 65536) ∧ (1 ≤ P.visCap ∧ P.visCap ≤ 4096) ∧
  (1 ≤ P.cmdqDepth ∧ P.cmdqDepth ≤ 255) ∧ (1 ≤ P.nmax ∧ P.nmax ≤ 4096) ∧
  (8000 ≤ P.srMin ∧ P.srMin ≤ P.srMax ∧ P.srMax ≤ 16777215) ∧ P.ccWaveNum ≠ P.ccLayerNum

/-- The reference instance of 00_scope.md R6. -/
def Params.reference : Params where
  voiceMax := 8
  oscMax := 4
  numPresets := 2
  delayCap := 32768
  visCap := 1024
  cmdqDepth := 64
  nmax := 4096
  srMin := 8000
  srMax := 192000
  ccWaveNum := 20
  ccLayerNum := 21

/-- Free value: the sign and the magnitude bits of `SIN_T` at a point where 00_scope.md R22 fixes no value; the
magnitude is at most that of 1.0.  Notes 2. -/
opaque Config.sinFree : F32 → Bool × Fin 0x3F800001

/-- Free value: `SIN_T` outside the domain [0, 1.25] of 00_scope.md R22, any word at all.  Notes 2. -/
opaque Config.sinOutside : F32 → F32

/-- Free value: the choices from which `Machine.tanhMag` builds an arbitrary monotone function (00_scope.md R22).
Notes 3. -/
opaque Config.tanhChoice : Nat → Nat

/-- Free value: `TANH` of an infinity or a NaN, of which 00_scope.md R22 says nothing.  Notes 3. -/
opaque Config.tanhOutside : F32 → F32

/-- Free value: the n-th phase draw, as an index into the binary32 values `0 <= p < 1` (00_scope.md R24): an index
below 0x3F800000 is the bit pattern itself, the last index stands for −0.0.  Notes 4. -/
opaque Config.phaseDraw : Nat → Fin 0x3F800001

/-- Free value: the n-th draw returned by a read of engine-written state while BUSY = 1 (20_memory.md R162), any
32-bit word.  Notes 5. -/
opaque Config.readDraw : Nat → Word

/-- Free value: whether a counter clear that may race with an increment by the engine, numbered by the counter of draws,
leaves 1 and not 0 (40_host_commands.md R254).  Notes 15. -/
opaque Config.clearDraw : Nat → Bool

/-- The operations that can produce a NaN. -/
inductive FOp where
  | add
  | mul
  | div
  | floor
  | round
  deriving DecidableEq, Repr

/-- Free value: the sign and payload of the NaN that an operation on these operands produces (the spec names the
IEEE 754 format and fixes no payload).  Notes 6. -/
opaque Config.nanPayload : FOp → F32 → F32 → Word

end Sys2Proof
end

