-- ==== Sys2Proof/Machine/Memory.lean ====
section
/-!
DEFINITION. The memory of the block: the RAMs DLY and VIS at the host addresses of their windows (20_memory.md R151,
R152), as (address, byte) pairs in one canonical form.

Every access moves a whole 32-bit word (R150); the bytes of a word lie in the order of R155's byte bridge (notes 8).
-/

namespace Sys2Proof.Machine

/-- Addresses strictly rising, and no entry equal to what an unlisted address reads as. -/
abbrev Memory := List Host.Cell

/-- What an unlisted address reads as: every word of both RAMs is +0.0 at reset (10_state.md R80, R85). -/
def unlistedByte : Byte := 0

/-- Whether every address of the list is above `a`, the addresses rise strictly, and no byte is `unlistedByte`. -/
def Memory.wfAbove : Option Nat → Memory → Bool
  | _, [] => true
  | low, (b, v) :: m => (low.all (· < b)) && v != unlistedByte && Memory.wfAbove (some b) m

/-- The canonical form. -/
def Memory.wf (m : Memory) : Bool := Memory.wfAbove none m

/-- The byte at address `a`. -/
def Memory.read : Memory → Nat → Byte
  | [], _ => unlistedByte
  | (b, v) :: m, a => if b = a then v else Memory.read m a

/-- Stores `v` at address `a`, keeping the canonical form. -/
def Memory.write : Memory → Nat → Byte → Memory
  | [], a, v => if v = unlistedByte then [] else [(a, v)]
  | (b, u) :: m, a, v =>
    if a < b then (if v = unlistedByte then (b, u) :: m else (a, v) :: (b, u) :: m)
    else if a = b then (if v = unlistedByte then m else (a, v) :: m)
    else (b, u) :: Memory.write m a v

/-- The word at byte address `a`: byte `k` is bits [8k+7:8k] (20_memory.md R155). -/
def Memory.readWord (m : Memory) (a : Nat) : Word :=
  ((m.read (a + 3) ++ m.read (a + 2)) ++ m.read (a + 1)) ++ m.read a

/-- Stores the word `w` at byte address `a`: byte `k` is bits [8k+7:8k] (20_memory.md R155). -/
def Memory.writeWord (m : Memory) (a : Nat) (w : Word) : Memory :=
  (((m.write a (w.extractLsb' 0 8)).write (a + 1) (w.extractLsb' 8 8)).write (a + 2) (w.extractLsb' 16 8)).write
    (a + 3) (w.extractLsb' 24 8)

/-- The two RAMs (20_memory.md R151). -/
inductive Space where
  | dly
  | vis
  deriving DecidableEq, Repr

/-- The host byte address of word `i` of a RAM (20_memory.md R152). -/
def wordAddr : Space → Nat → Nat
  | .dly, i => 0x40000 + 4 * i
  | .vis, i => 0x8000 + 4 * i

/-- MemRead(space, i) (00_scope.md R9). -/
def memRead (m : Memory) (sp : Space) (i : Nat) : Word := m.readWord (wordAddr sp i)

/-- MemWrite(space, i, w) (00_scope.md R9). -/
def memWrite (m : Memory) (sp : Space) (i : Nat) (w : Word) : Memory := m.writeWord (wordAddr sp i) w

end Sys2Proof.Machine
end

