-- ==== Sys2Proof/Syntax.lean ====
section
/-!
DEFINITION. The instructions of the block (opcode_table.json): one constructor per row, the host's bus transactions
first, then the events the engine executes at a buffer boundary.  The names of the registers a transaction can
address are here too.
-/

namespace Sys2Proof

/-- The counters a CNT_CLEAR names (40_host_commands.md R254). -/
inductive Counter where
  | drop
  | ign
  | qovf
  deriving DecidableEq, Repr

/-- The integer configuration registers (10_state.md R103). -/
inductive IReg where
  | sampleRate
  | channels
  | mode
  | delayLen
  | quantBits
  | velT
  deriving DecidableEq, Repr

/-- The floating-point configuration registers (10_state.md R102). -/
inductive FReg where
  | masterVolume
  | voiceGain
  | oscGain
  | delayGain
  | delayFeedback
  | delayMix
  | vibRate
  | vibDepth
  | vibOnset
  | tremRate
  | tremDepth
  | attackS
  | decayS
  | sustain
  | releaseS
  | envFloor
  | filtAFast
  | filtASlow
  | dcBlock
  | pan
  | velG0
  | velG1
  | velG2
  | velG3
  | velGmin
  | velGmax
  deriving DecidableEq, Repr

/-- The floating-point fields of a preset's oscillator slot, in the order of their field select (10_state.md R107). -/
inductive PField where
  | oct
  | duty
  | vol
  | detune
  deriving DecidableEq, Repr

/-- The instructions.  A transaction's `w` is its 32-bit data word, kept whole: the bits an instruction ignores are
part of its encoding.  An event's `ch` is its ignored CHAN field (30_encoding.md R202). -/
inductive Instr where
  | busMisaligned (rw : Bool) (addr : BusAddr) (w : Word)
  | rd (addr : BusAddr)
  | ctrlSoftReset (w : Word)
  | ctrlStart (w : Word)
  | ctrlStop (w : Word)
  | statusW1c (w : Word)
  | evPush (w : Word)
  | render (w : Word)
  | cntClear (c : Counter) (w : Word)
  | wrSampleRate (w : Word)
  | wrChannels (w : Word)
  | wrMode (w : Word)
  | wrDelayLen (w : Word)
  | wrQuantBits (w : Word)
  | wrVelT (w : Word)
  | wrF32MasterVolume (w : Word)
  | wrF32VoiceGain (w : Word)
  | wrF32OscGain (w : Word)
  | wrF32DelayGain (w : Word)
  | wrF32DelayFeedback (w : Word)
  | wrF32DelayMix (w : Word)
  | wrF32VibRate (w : Word)
  | wrF32VibDepth (w : Word)
  | wrF32VibOnset (w : Word)
  | wrF32TremRate (w : Word)
  | wrF32TremDepth (w : Word)
  | wrF32AttackS (w : Word)
  | wrF32DecayS (w : Word)
  | wrF32Sustain (w : Word)
  | wrF32ReleaseS (w : Word)
  | wrF32EnvFloor (w : Word)
  | wrF32FiltAFast (w : Word)
  | wrF32FiltASlow (w : Word)
  | wrF32DcBlock (w : Word)
  | wrF32Pan (w : Word)
  | wrF32VelG0 (w : Word)
  | wrF32VelG1 (w : Word)
  | wrF32VelG2 (w : Word)
  | wrF32VelG3 (w : Word)
  | wrF32VelGmin (w : Word)
  | wrF32VelGmax (w : Word)
  | wrPresetCount (p : BitVec 3) (w : Word)
  | wrPresetOct (p o : BitVec 3) (w : Word)
  | wrPresetDuty (p o : BitVec 3) (w : Word)
  | wrPresetVol (p o : BitVec 3) (w : Word)
  | wrPresetDetune (p o : BitVec 3) (w : Word)
  | wrIgnored (addr : BusAddr) (w : Word)
  | evReserved (e : EventWord)
  | evBaddata (e : EventWord)
  | noteOff (ch : BitVec 4) (k rv : BitVec 7)
  | noteOn (ch : BitVec 4) (k vel : BitVec 7)
  | ccWave (ch : BitVec 4) (d : BitVec 7)
  | ccLayer (ch : BitVec 4) (d : BitVec 7)
  | ccOther (ch : BitVec 4) (ctl d : BitVec 7)
  deriving DecidableEq, Repr

/-- The result of DECODE on an event word (30_encoding.md R204). -/
inductive Event where
  | reserved (e : EventWord)
  | badData (e : EventWord)
  | noteOff (ch : BitVec 4) (k rv : BitVec 7)
  | noteOn (ch : BitVec 4) (k vel : BitVec 7)
  | ccWave (ch : BitVec 4) (d : BitVec 7)
  | ccLayer (ch : BitVec 4) (d : BitVec 7)
  | ccOther (ch : BitVec 4) (ctl d : BitVec 7)
  deriving DecidableEq, Repr

/-- An event as the instruction it is. -/
def Event.toInstr : Event → Instr
  | .reserved e => .evReserved e
  | .badData e => .evBaddata e
  | .noteOff ch k rv => .noteOff ch k rv
  | .noteOn ch k vel => .noteOn ch k vel
  | .ccWave ch d => .ccWave ch d
  | .ccLayer ch d => .ccLayer ch d
  | .ccOther ch ctl d => .ccOther ch ctl d

/-- The write of data word `w` to a floating-point configuration register (the family WR_F32). -/
def FReg.write (r : FReg) (w : Word) : Instr :=
  match r with
  | .masterVolume => .wrF32MasterVolume w
  | .voiceGain => .wrF32VoiceGain w
  | .oscGain => .wrF32OscGain w
  | .delayGain => .wrF32DelayGain w
  | .delayFeedback => .wrF32DelayFeedback w
  | .delayMix => .wrF32DelayMix w
  | .vibRate => .wrF32VibRate w
  | .vibDepth => .wrF32VibDepth w
  | .vibOnset => .wrF32VibOnset w
  | .tremRate => .wrF32TremRate w
  | .tremDepth => .wrF32TremDepth w
  | .attackS => .wrF32AttackS w
  | .decayS => .wrF32DecayS w
  | .sustain => .wrF32Sustain w
  | .releaseS => .wrF32ReleaseS w
  | .envFloor => .wrF32EnvFloor w
  | .filtAFast => .wrF32FiltAFast w
  | .filtASlow => .wrF32FiltASlow w
  | .dcBlock => .wrF32DcBlock w
  | .pan => .wrF32Pan w
  | .velG0 => .wrF32VelG0 w
  | .velG1 => .wrF32VelG1 w
  | .velG2 => .wrF32VelG2 w
  | .velG3 => .wrF32VelG3 w
  | .velGmin => .wrF32VelGmin w
  | .velGmax => .wrF32VelGmax w

/-- The write of data word `w` to an integer configuration register. -/
def IReg.write (r : IReg) (w : Word) : Instr :=
  match r with
  | .sampleRate => .wrSampleRate w
  | .channels => .wrChannels w
  | .mode => .wrMode w
  | .delayLen => .wrDelayLen w
  | .quantBits => .wrQuantBits w
  | .velT => .wrVelT w

/-- The write of data word `w` to a floating-point field of slot `o` of preset `p`. -/
def PField.write (f : PField) (p o : BitVec 3) (w : Word) : Instr :=
  match f with
  | .oct => .wrPresetOct p o w
  | .duty => .wrPresetDuty p o w
  | .vol => .wrPresetVol p o w
  | .detune => .wrPresetDetune p o w

end Sys2Proof
end

