-- ==== Sys2Proof/WellFormed.lean ====
section
/-!
DEFINITION. Which instructions have an encoding: the conditions under which a row of opcode_table.json is the row of
its words (30_encoding.md R204, R206, R210), for an instance with parameters `P`.
-/

namespace Sys2Proof

/-- An aligned byte address (20_memory.md R154). -/
def aligned (a : BusAddr) : Bool := a.toNat % 4 == 0

/-- The byte address of preset `p`'s COUNT (10_state.md R107). -/
def presetCountAddr (p : BitVec 3) : Nat := 0x800 + p.toNat * 0x100

/-- The byte address of slot `o`'s field `f` in preset `p` (10_state.md R107). -/
def presetFieldAddr (p o : BitVec 3) (f : Nat) : Nat := 0x880 + p.toNat * 0x100 + o.toNat * 0x10 + 4 * f

/-- The preset index of an address in the preset windows: bits [10:8] (10_state.md R107). -/
def presetIndex (a : BusAddr) : Nat := a.toNat / 0x100 % 8

/-- The slot index of an address in the preset windows: bits [6:4] (10_state.md R107). -/
def slotIndex (a : BusAddr) : Nat := a.toNat / 0x10 % 8

/-- An aligned address to which the table of 30_encoding.md R210 gives a write of its own: CTRL, STATUS, EVENT,
RENDER and three counters, the 32 configuration registers, and the preset registers of existing presets and slots. -/
def writableAddr (P : Params) (a : BusAddr) : Bool :=
  let n := a.toNat
  (0x10 ≤ n && n ≤ 0x28) || (0x100 ≤ n && n ≤ 0x17C) ||
  (n / 0x800 == 1 && presetIndex a < P.numPresets &&
    (n % 0x100 == 0 || (n / 0x80 % 2 == 1 && slotIndex a < P.oscMax)))

/-- Whether TYPE is one of the three event types of 30_encoding.md R201. -/
def knownType (t : BitVec 4) : Bool := t == 0x8 || t == 0x9 || t == 0xB

/-- An instruction that its own words decode to. -/
def Instr.wellFormed (P : Params) : Instr → Bool
  | .busMisaligned rw addr w => !aligned addr && (rw || w == 0)
  | .rd addr => aligned addr
  | .ctrlSoftReset w => w.getLsbD 1
  | .ctrlStart w => !w.getLsbD 1 && w.getLsbD 0
  | .ctrlStop w => !w.getLsbD 1 && !w.getLsbD 0
  | .statusW1c _ => true
  | .evPush _ => true
  | .render _ => true
  | .cntClear _ _ => true
  | .wrSampleRate _ => true
  | .wrChannels _ => true
  | .wrMode _ => true
  | .wrDelayLen _ => true
  | .wrQuantBits _ => true
  | .wrVelT _ => true
  | .wrF32MasterVolume _ => true
  | .wrF32VoiceGain _ => true
  | .wrF32OscGain _ => true
  | .wrF32DelayGain _ => true
  | .wrF32DelayFeedback _ => true
  | .wrF32DelayMix _ => true
  | .wrF32VibRate _ => true
  | .wrF32VibDepth _ => true
  | .wrF32VibOnset _ => true
  | .wrF32TremRate _ => true
  | .wrF32TremDepth _ => true
  | .wrF32AttackS _ => true
  | .wrF32DecayS _ => true
  | .wrF32Sustain _ => true
  | .wrF32ReleaseS _ => true
  | .wrF32EnvFloor _ => true
  | .wrF32FiltAFast _ => true
  | .wrF32FiltASlow _ => true
  | .wrF32DcBlock _ => true
  | .wrF32Pan _ => true
  | .wrF32VelG0 _ => true
  | .wrF32VelG1 _ => true
  | .wrF32VelG2 _ => true
  | .wrF32VelG3 _ => true
  | .wrF32VelGmin _ => true
  | .wrF32VelGmax _ => true
  | .wrPresetCount p _ => p.toNat < P.numPresets
  | .wrPresetOct p o _ => p.toNat < P.numPresets && o.toNat < P.oscMax
  | .wrPresetDuty p o _ => p.toNat < P.numPresets && o.toNat < P.oscMax
  | .wrPresetVol p o _ => p.toNat < P.numPresets && o.toNat < P.oscMax
  | .wrPresetDetune p o _ => p.toNat < P.numPresets && o.toNat < P.oscMax
  | .wrIgnored addr _ => aligned addr && !writableAddr P addr
  | .evReserved e => !knownType (e.extractLsb' 20 4)
  | .evBaddata e => knownType (e.extractLsb' 20 4) && (e.getLsbD 15 || e.getLsbD 7)
  | .noteOff _ _ _ => true
  | .noteOn _ _ _ => true
  | .ccWave _ _ => true
  | .ccLayer _ _ => true
  | .ccOther _ ctl _ => ctl != P.ccWaveNum && ctl != P.ccLayerNum

end Sys2Proof
end

