-- ==== Sys2Proof/Decode.lean ====
section
/-!
DEFINITION. Decoding and encoding: the address map (20_memory.md R152), DECODE of an event word (30_encoding.md
R204), the decoding of a bus transaction (R206, R210), and the encoder written from the same layouts.
-/

namespace Sys2Proof

/-- What an aligned host address names (20_memory.md R152). -/
inductive Loc where
  | id
  | cfg0
  | cfg1
  | cfg2
  | ctrl
  | status
  | event
  | renderReq
  | dropCount
  | ignCount
  | qovfCount
  | frameCount
  | delayRd
  | delayWr
  | visWr
  | sel
  | int (r : IReg)
  | flt (r : FReg)
  | presetCount (p : BitVec 3)
  | presetField (p o : BitVec 3) (f : PField)
  /-- word `j` of the window of voice `v` (10_state.md R120) -/
  | voice (v j : Nat)
  /-- word `j` of the window of slot `o` of voice `v` (10_state.md R121) -/
  | osc (v o j : Nat)
  | vis (i : Nat)
  | dly (i : Nat)
  | unmapped
  deriving DecidableEq, Repr

/-- The sixteen registers at 0x00000 .. 0x0003C, in address order (20_memory.md R152). -/
def controlLocs : List Loc :=
  [.id, .cfg0, .cfg1, .cfg2, .ctrl, .status, .event, .renderReq,
   .dropCount, .ignCount, .qovfCount, .frameCount, .delayRd, .delayWr, .visWr, .sel]

/-- The thirty-two configuration registers at 0x00100 .. 0x0017C, in address order (10_state.md R102, R103). -/
def configLocs : List Loc :=
  [.int .sampleRate, .int .channels, .int .mode, .flt .masterVolume,
   .flt .voiceGain, .flt .oscGain, .flt .delayGain, .flt .delayFeedback,
   .flt .delayMix, .int .delayLen, .flt .vibRate, .flt .vibDepth,
   .flt .vibOnset, .flt .tremRate, .flt .tremDepth, .int .quantBits] ++
  [.flt .attackS, .flt .decayS, .flt .sustain, .flt .releaseS,
   .flt .envFloor, .flt .filtAFast, .flt .filtASlow, .flt .dcBlock,
   .flt .pan, .int .velT, .flt .velG0, .flt .velG1,
   .flt .velG2, .flt .velG3, .flt .velGmin, .flt .velGmax]

/-- A preset field by its select bits [3:2] (10_state.md R107). -/
def PField.ofSelect (f : BitVec 2) : PField :=
  if f = 0 then .oct else if f = 1 then .duty else if f = 2 then .vol else .detune

/-- The select bits of a preset field (10_state.md R107). -/
def PField.select : PField → Nat
  | .oct => 0
  | .duty => 1
  | .vol => 2
  | .detune => 3

/-- What an address in the preset windows 0x00800 .. 0x00FFF names (10_state.md R107). -/
def locatePreset (P : Params) (a : BusAddr) : Loc :=
  let p := a.extractLsb' 8 3
  if p.toNat < P.numPresets then
    if a.getLsbD 7 then
      let o := a.extractLsb' 4 3
      if o.toNat < P.oscMax then .presetField p o (PField.ofSelect (a.extractLsb' 2 2)) else .unmapped
    else if a.extractLsb' 0 8 = 0 then .presetCount p else .unmapped
  else .unmapped

/-- The address map of 20_memory.md R152 for an instance with parameters `P`.  No address is rounded down (R154): a
misaligned one names nothing. -/
def locate (P : Params) (a : BusAddr) : Loc :=
  let n := a.toNat
  if n % 4 ≠ 0 then .unmapped
  else if n < 0x40 then controlLocs.getD (n / 4) .unmapped
  else if 0x100 ≤ n ∧ n < 0x180 then configLocs.getD ((n - 0x100) / 4) .unmapped
  else if 0x800 ≤ n ∧ n < 0x1000 then locatePreset P a
  else if 0x1000 ≤ n ∧ n < 0x1000 + 0x20 * P.voiceMax then .voice ((n - 0x1000) / 0x20) (n % 0x20 / 4)
  else if 0x4000 ≤ n ∧ n < 0x4000 + 0x200 * P.voiceMax then
    if n % 0x200 / 0x40 < P.oscMax then .osc ((n - 0x4000) / 0x200) (n % 0x200 / 0x40) (n % 0x40 / 4) else .unmapped
  else if 0x8000 ≤ n ∧ n < 0x8000 + 4 * P.visCap then .vis ((n - 0x8000) / 4)
  else if 0x40000 ≤ n ∧ n < 0x40000 + 4 * P.delayCap then .dly ((n - 0x40000) / 4)
  else .unmapped

/-- A write to CTRL by its data bits [1:0] (40_host_commands.md R255). -/
def decodeCtrl (w : Word) : Instr :=
  if w.getLsbD 1 then .ctrlSoftReset w else if w.getLsbD 0 then .ctrlStart w else .ctrlStop w

/-- An aligned write, by what its address names (30_encoding.md R210). -/
def decodeWrite (P : Params) (a : BusAddr) (w : Word) : Instr :=
  match locate P a with
  | .ctrl => decodeCtrl w
  | .status => .statusW1c w
  | .event => .evPush w
  | .renderReq => .render w
  | .dropCount => .cntClear .drop w
  | .ignCount => .cntClear .ign w
  | .qovfCount => .cntClear .qovf w
  | .int r => r.write w
  | .flt r => r.write w
  | .presetCount p => .wrPresetCount p w
  | .presetField p o f => f.write p o w
  | .id | .cfg0 | .cfg1 | .cfg2 | .frameCount | .delayRd | .delayWr | .visWr | .sel
  | .voice _ _ | .osc _ _ _ | .vis _ | .dly _ | .unmapped => .wrIgnored a w

/-- RW of a transaction: 1 for a write (30_encoding.md R206). -/
def busRw (T : BusWord) : Bool := T.getLsbD 52

/-- ADDR of a transaction (30_encoding.md R206). -/
def busAddr (T : BusWord) : BusAddr := T.extractLsb' 32 20

/-- DATA of a transaction (30_encoding.md R206). -/
def busData (T : BusWord) : Word := T.extractLsb' 0 32

/-- The decoding of a bus transaction, in the fixed order of 30_encoding.md R206.  DATA is ignored for a read. -/
def decodeBus (P : Params) (T : BusWord) : Instr :=
  if !aligned (busAddr T) then .busMisaligned (busRw T) (busAddr T) (if busRw T then busData T else 0)
  else if !busRw T then .rd (busAddr T)
  else decodeWrite P (busAddr T) (busData T)

/-- DECODE (30_encoding.md R204), in its fixed order. -/
def decodeEvent (P : Params) (e : EventWord) : Event :=
  let t := e.extractLsb' 20 4
  let ch := e.extractLsb' 16 4
  let k := e.extractLsb' 8 7
  let d := e.extractLsb' 0 7
  if !knownType t then .reserved e
  else if e.getLsbD 15 || e.getLsbD 7 then .badData e
  else if t = 0x8 then .noteOff ch k d
  else if t = 0x9 then .noteOn ch k d
  else if k = P.ccWaveNum then .ccWave ch d
  else if k = P.ccLayerNum then .ccLayer ch d
  else .ccOther ch k d

/-- The two encoded forms of the block (30_encoding.md): a bus transaction or an event word. -/
inductive Code where
  | bus (T : BusWord)
  | event (e : EventWord)
  deriving DecidableEq, Repr

/-- The instruction a code stands for; every code has one (30_encoding.md R204, R206). -/
def decode (P : Params) : Code → Instr
  | .bus T => decodeBus P T
  | .event e => (decodeEvent P e).toInstr

/-! ## The encoder -/

/-- The transaction `{RW, ADDR, DATA}` (30_encoding.md R206). -/
def busWord (rw : Bool) (a : BusAddr) (w : Word) : BusWord :=
  ((if rw then 1#1 else 0#1) ++ a) ++ w

/-- A write of `w` to the byte address `n`. -/
def writeTo (n : Nat) (w : Word) : Code := .bus (busWord true (BitVec.ofNat 20 n) w)

/-- The event word with these fields and D1H = D2H = 0 (30_encoding.md R200). -/
def eventWord (t ch : BitVec 4) (d1 d2 : BitVec 7) : EventWord :=
  ((t ++ ch) ++ (0#1 ++ d1)) ++ (0#1 ++ d2)

/-- The byte address of a diagnostic counter (10_state.md R116). -/
def Counter.addr : Counter → Nat
  | .drop => 0x20
  | .ign => 0x24
  | .qovf => 0x28

/-- The byte address of an integer configuration register (10_state.md R103). -/
def IReg.addr : IReg → Nat
  | .sampleRate => 0x100
  | .channels => 0x104
  | .mode => 0x108
  | .delayLen => 0x124
  | .quantBits => 0x13C
  | .velT => 0x164

/-- The byte address of a floating-point configuration register (10_state.md R102). -/
def FReg.addr : FReg → Nat
  | .masterVolume => 0x10C
  | .voiceGain => 0x110
  | .oscGain => 0x114
  | .delayGain => 0x118
  | .delayFeedback => 0x11C
  | .delayMix => 0x120
  | .vibRate => 0x128
  | .vibDepth => 0x12C
  | .vibOnset => 0x130
  | .tremRate => 0x134
  | .tremDepth => 0x138
  | .attackS => 0x140
  | .decayS => 0x144
  | .sustain => 0x148
  | .releaseS => 0x14C
  | .envFloor => 0x150
  | .filtAFast => 0x154
  | .filtASlow => 0x158
  | .dcBlock => 0x15C
  | .pan => 0x160
  | .velG0 => 0x168
  | .velG1 => 0x16C
  | .velG2 => 0x170
  | .velG3 => 0x174
  | .velGmin => 0x178
  | .velGmax => 0x17C

/-- The word of a well-formed instruction, for an instance with parameters `P`. -/
def encode (P : Params) : Instr → Code
  | .busMisaligned rw addr w => .bus (busWord rw addr w)
  | .rd addr => .bus (busWord false addr 0)
  | .ctrlSoftReset w => writeTo 0x10 w
  | .ctrlStart w => writeTo 0x10 w
  | .ctrlStop w => writeTo 0x10 w
  | .statusW1c w => writeTo 0x14 w
  | .evPush w => writeTo 0x18 w
  | .render w => writeTo 0x1C w
  | .cntClear c w => writeTo c.addr w
  | .wrSampleRate w => writeTo IReg.sampleRate.addr w
  | .wrChannels w => writeTo IReg.channels.addr w
  | .wrMode w => writeTo IReg.mode.addr w
  | .wrDelayLen w => writeTo IReg.delayLen.addr w
  | .wrQuantBits w => writeTo IReg.quantBits.addr w
  | .wrVelT w => writeTo IReg.velT.addr w
  | .wrF32MasterVolume w => writeTo FReg.masterVolume.addr w
  | .wrF32VoiceGain w => writeTo FReg.voiceGain.addr w
  | .wrF32OscGain w => writeTo FReg.oscGain.addr w
  | .wrF32DelayGain w => writeTo FReg.delayGain.addr w
  | .wrF32DelayFeedback w => writeTo FReg.delayFeedback.addr w
  | .wrF32DelayMix w => writeTo FReg.delayMix.addr w
  | .wrF32VibRate w => writeTo FReg.vibRate.addr w
  | .wrF32VibDepth w => writeTo FReg.vibDepth.addr w
  | .wrF32VibOnset w => writeTo FReg.vibOnset.addr w
  | .wrF32TremRate w => writeTo FReg.tremRate.addr w
  | .wrF32TremDepth w => writeTo FReg.tremDepth.addr w
  | .wrF32AttackS w => writeTo FReg.attackS.addr w
  | .wrF32DecayS w => writeTo FReg.decayS.addr w
  | .wrF32Sustain w => writeTo FReg.sustain.addr w
  | .wrF32ReleaseS w => writeTo FReg.releaseS.addr w
  | .wrF32EnvFloor w => writeTo FReg.envFloor.addr w
  | .wrF32FiltAFast w => writeTo FReg.filtAFast.addr w
  | .wrF32FiltASlow w => writeTo FReg.filtASlow.addr w
  | .wrF32DcBlock w => writeTo FReg.dcBlock.addr w
  | .wrF32Pan w => writeTo FReg.pan.addr w
  | .wrF32VelG0 w => writeTo FReg.velG0.addr w
  | .wrF32VelG1 w => writeTo FReg.velG1.addr w
  | .wrF32VelG2 w => writeTo FReg.velG2.addr w
  | .wrF32VelG3 w => writeTo FReg.velG3.addr w
  | .wrF32VelGmin w => writeTo FReg.velGmin.addr w
  | .wrF32VelGmax w => writeTo FReg.velGmax.addr w
  | .wrPresetCount p w => writeTo (presetCountAddr p) w
  | .wrPresetOct p o w => writeTo (presetFieldAddr p o PField.oct.select) w
  | .wrPresetDuty p o w => writeTo (presetFieldAddr p o PField.duty.select) w
  | .wrPresetVol p o w => writeTo (presetFieldAddr p o PField.vol.select) w
  | .wrPresetDetune p o w => writeTo (presetFieldAddr p o PField.detune.select) w
  | .wrIgnored addr w => .bus (busWord true addr w)
  | .evReserved e => .event e
  | .evBaddata e => .event e
  | .noteOff ch k rv => .event (eventWord 0x8 ch k rv)
  | .noteOn ch k vel => .event (eventWord 0x9 ch k vel)
  | .ccWave ch d => .event (eventWord 0xB ch P.ccWaveNum d)
  | .ccLayer ch d => .event (eventWord 0xB ch P.ccLayerNum d)
  | .ccOther ch ctl d => .event (eventWord 0xB ch ctl d)

/-! ## The host's entry points -/

/-- Why a table word is not a code of the block. -/
inductive DecodeError where
  /-- the word has a bit beyond the 24 bits of an event or the 53 bits of a transaction -/
  | tooWide
  /-- the row is neither an event's 24 bits nor a transaction's 53 bits in whole bytes -/
  | unknownFormat
  deriving DecidableEq, Repr

/-- The code in a word of `nbits` bits, numbered as opcode_table.json numbers them: a row of at most 32 bits is an
EVENT24 word, a row of at most 64 bits a BUS53 word. -/
def Code.ofTable (nbits w : Nat) : Except DecodeError Code :=
  if nbits ≤ 32 then (if w < 2 ^ 24 then .ok (.event (BitVec.ofNat 24 w)) else .error .tooWide)
  else if nbits ≤ 64 then (if w < 2 ^ 53 then .ok (.bus (BitVec.ofNat 53 w)) else .error .tooWide)
  else .error .unknownFormat

/-- The instruction the reference instance's decoder reads from a table word. -/
def decodeTableWord (nbits w : Nat) : Option Instr :=
  match Code.ofTable nbits w with
  | .ok c => some (decode Params.reference c)
  | .error _ => none

end Sys2Proof
end

