-- ==== Sys2Proof/Machine/Float.lean ====
section
/-!
DEFINITION. Binary32 arithmetic, comparison and selection (00_scope.md R20, R21).

A finite value is an integer number of units of 2^-149, the least subnormal: a magnitude whose bits are `E`, `F`
counts `F` units when `E = 0` and `(2^23 + F) * 2^(E-1)` units otherwise.  An operation computes its exact result as
a fraction of units and rounds once.
-/

namespace Sys2Proof.Machine

/-- The magnitude bits [30:0], read as a number: the order of magnitudes is the order of these numbers. -/
def fmag (x : F32) : Nat := x.toNat % 2 ^ 31

/-- The magnitude bits of an infinity. -/
def infMag : Nat := 0x7F800000

def fIsNaN (x : F32) : Bool := infMag < fmag x

def fIsInf (x : F32) : Bool := fmag x == infMag

def fIsFinite (x : F32) : Bool := fmag x < infMag

/-- The magnitude of a finite value, in units of 2^-149. -/
def funits (x : F32) : Nat :=
  let e := fmag x / 2 ^ 23
  let f := fmag x % 2 ^ 23
  if e = 0 then f else (2 ^ 23 + f) * 2 ^ (e - 1)

/-- A finite value, in units of 2^-149. -/
def fvalue (x : F32) : Int := if x.msb then -(funits x : Int) else funits x

/-- The word with this sign and these magnitude bits. -/
def fpack (neg : Bool) (mag : Nat) : F32 := BitVec.ofNat 32 (if neg then 2 ^ 31 + mag else mag)

/-- The magnitude bits of `n / d` units rounded to nearest, ties to even (00_scope.md R20); from the middle of the
largest finite value's upper gap on, those of an infinity.  The result's exponent is fixed by `q`, the number of low
bits of the quotient that do not fit a 24-bit significand; a significand that rounds up to 2^24 carries into the
exponent field by itself. -/
def roundUnits (n d : Nat) : Nat :=
  let k := n / d
  let q := if k < 2 ^ 24 then 0 else Nat.log2 k - 23
  let unit := d * 2 ^ q
  let m := n / unit
  let r := n % unit
  let m := if unit < 2 * r ∨ (2 * r = unit ∧ m % 2 = 1) then m + 1 else m
  min (q * 2 ^ 23 + m) infMag

/-- A quiet NaN of free sign and payload (notes 6). -/
def fNaN (op : FOp) (a b : F32) : F32 := Config.nanPayload op a b ||| 0x7FC00000

def fneg (x : F32) : F32 := x ^^^ 0x80000000

def fabs (x : F32) : F32 := x &&& 0x7FFFFFFF

/-- `a + b` (00_scope.md R20).  A sum that is exactly zero is +0.0, unless both operands are negative zeros. -/
def fadd (a b : F32) : F32 :=
  if fIsNaN a || fIsNaN b then fNaN .add a b
  else if fIsInf a then (if fIsInf b && a.msb != b.msb then fNaN .add a b else a)
  else if fIsInf b then b
  else
    let z := fvalue a + fvalue b
    if z = 0 then fpack (a.msb && b.msb) 0 else fpack (decide (z < 0)) (roundUnits z.natAbs 1)

/-- `a − b` (00_scope.md R20). -/
def fsub (a b : F32) : F32 := fadd a (fneg b)

/-- `a × b` (00_scope.md R20). -/
def fmul (a b : F32) : F32 :=
  let s := a.msb != b.msb
  if fIsNaN a || fIsNaN b then fNaN .mul a b
  else if fIsInf a || fIsInf b then
    (if fmag a = 0 ∨ fmag b = 0 then fNaN .mul a b else fpack s infMag)
  else fpack s (roundUnits (funits a * funits b) (2 ^ 149))

/-- `a / b` (00_scope.md R20). -/
def fdiv (a b : F32) : F32 :=
  let s := a.msb != b.msb
  if fIsNaN a || fIsNaN b then fNaN .div a b
  else if fIsInf a then (if fIsInf b then fNaN .div a b else fpack s infMag)
  else if fIsInf b then fpack s 0
  else if fmag b = 0 then (if fmag a = 0 then fNaN .div a b else fpack s infMag)
  else fpack s (roundUnits (funits a * 2 ^ 149) (funits b))

/-- `float(n)`, exact for `n <= 2^24` (00_scope.md R20). -/
def fofNat (n : Nat) : F32 := fpack false (roundUnits (n * 2 ^ 149) 1)

/-- The place of a value that is no NaN in the order of the extended reals; both zeros have place 0. -/
def fkey (x : F32) : Int := if x.msb then -(fmag x : Int) else fmag x

/-- `a <= b` (00_scope.md R21): false when an operand is a NaN. -/
def fle (a b : F32) : Bool := !fIsNaN a && !fIsNaN b && fkey a ≤ fkey b

/-- `a < b` (00_scope.md R21). -/
def flt (a b : F32) : Bool := !fIsNaN a && !fIsNaN b && fkey a < fkey b

/-- `a == b` (00_scope.md R21): the two zeros are equal. -/
def feq (a b : F32) : Bool := !fIsNaN a && !fIsNaN b && fkey a == fkey b

/-- `min(a, b)` (00_scope.md R21). -/
def fmin (a b : F32) : F32 := if fle a b then a else b

/-- `max(a, b)` (00_scope.md R21). -/
def fmax (a b : F32) : F32 := if fle b a then a else b

/-- `clamp(x, lo, hi)` (00_scope.md R21). -/
def fclamp (x lo hi : F32) : F32 := fmin (fmax x lo) hi

/-- The units of 1.0. -/
def oneUnits : Nat := 2 ^ 149

/-- `floor(x)` (00_scope.md R21): the greatest integer not above `x`; the integer 0 is +0.0 (notes 7). -/
def ffloor (x : F32) : F32 :=
  if fIsNaN x then fNaN .floor x x
  else if fIsInf x then x
  else
    let z := fvalue x / (oneUnits : Int)
    fpack (decide (z < 0)) (roundUnits (z.natAbs * oneUnits) 1)

/-- `frac(x)` (00_scope.md R21). -/
def ffrac (x : F32) : F32 := fsub x (ffloor x)

/-- `round_ha(x)` (00_scope.md R21): the nearest integer, ties away from zero, with the sign of `x`. -/
def froundHa (x : F32) : F32 :=
  if fIsNaN x then fNaN .round x x
  else if fIsInf x then x
  else fpack x.msb (roundUnits ((2 * funits x + oneUnits) / (2 * oneUnits) * oneUnits) 1)

/-! ## The literals of the rules -/

def f0 : F32 := 0x00000000
def fQuarter : F32 := 0x3E800000
def fHalf : F32 := 0x3F000000
def f1 : F32 := 0x3F800000
def f1p25 : F32 := 0x3FA00000
def f2 : F32 := 0x40000000
def f4 : F32 := 0x40800000

end Sys2Proof.Machine
end

