-- ==== Sys2Proof/Machine/Numeric.lean ====
section
/-!
DEFINITION. The numeric functions SIN_T, TANH, NOTE_FREQ and DRAW_PHASE (00_scope.md R22-R24).

SIN_T and TANH are parameters of which the spec gives properties only.  Each is built from free values of Config so
that the properties of R22 hold by construction and nothing else is fixed (notes 2, 3).
-/

namespace Sys2Proof.Machine

/-- SIN_T on [0, 0.25]: 0 and 1 at the ends, between them any value of magnitude at most 1 (00_scope.md R22). -/
def sinQuarter (x : F32) : F32 :=
  if feq x f0 then f0
  else if feq x fQuarter then f1
  else fpack (Config.sinFree x).1 (Config.sinFree x).2.val

/-- SIN_T on [0, 0.5]: SIN_T(0.5 − x) = SIN_T(x) (00_scope.md R22); `0.5 − x` is exact for x in [0.25, 0.5]. -/
def sinHalf (x : F32) : F32 := if fle x fQuarter then sinQuarter x else sinQuarter (fsub fHalf x)

/-- `SIN_T(x)`, standing for sin(2π·x) with `x` in turns (00_scope.md R22): on (0.5, 1.0), SIN_T(x) is
−SIN_T(x − 0.5), where `x − 0.5` is exact; SIN_T(1.0) = 0; on (1.0, 1.25], any value of magnitude at most 1; elsewhere
any word. -/
def sinT (x : F32) : F32 :=
  if !(fle f0 x && fle x f1p25) then Config.sinOutside x
  else if fle x fHalf then sinHalf x
  else if flt x f1 then fneg (sinHalf (fsub x fHalf))
  else if feq x f1 then f0
  else fpack (Config.sinFree x).1 (Config.sinFree x).2.val

/-- `c` brought into the interval `lo .. hi`. -/
def clampNat (c lo hi : Nat) : Nat := min (max c lo) hi

/-- A value between `lo` and `hi` for the point `n` of an interval of `2^k` points, monotone in `n`: the interval is
halved, and a free value splits the values between the lower and the upper half.  Every monotone function arises:
let each choice be the function's value at the last point of the lower half. -/
def monotoneChoice : (k node n lo hi : Nat) → Nat
  | 0, node, _, lo, hi => clampNat (Config.tanhChoice node) lo hi
  | k + 1, node, n, lo, hi =>
    let v := clampNat (Config.tanhChoice node) lo hi
    if n.testBit k then monotoneChoice k (2 * node + 1) n v hi else monotoneChoice k (2 * node) n lo v

/-- The magnitude bits of TANH at a finite magnitude: monotone, at most those of 1.0 (00_scope.md R22). -/
def tanhMag (n : Nat) : Nat := monotoneChoice 31 1 n 0 0x3F800000

/-- `TANH(x)` (00_scope.md R22): odd, monotone, bounded by 1 and zero at zero for finite `x`. -/
def tanh (x : F32) : F32 :=
  if !fIsFinite x then Config.tanhOutside x
  else if fmag x = 0 then x
  else fpack x.msb (tanhMag (fmag x))

/-- The n-th phase draw: any binary32 value `0 <= p < 1` (00_scope.md R24); the last index stands for −0.0. -/
def drawPhase (n : Nat) : F32 :=
  if (Config.phaseDraw n).val < 0x3F800000 then fpack false (Config.phaseDraw n).val else 0x80000000

/-- NOTE_FREQ for k = 0 .. 127 (00_scope.md R23; the table of 95_test_vectors.md section 2). -/
def noteFreqTable : List F32 :=
  [0x4102D013, 0x410A9760, 0x4112D517, 0x411B9041, 0x4124D054, 0x412E9D37, 0x4138FF49, 0x4143FF6A,
   0x414FA700, 0x415C0000, 0x416914F6, 0x4176F110, 0x4182D013, 0x418A9760, 0x4192D517, 0x419B9041,
   0x41A4D054, 0x41AE9D37, 0x41B8FF49, 0x41C3FF6A, 0x41CFA700, 0x41DC0000, 0x41E914F6, 0x41F6F110,
   0x4202D013, 0x420A9760, 0x4212D517, 0x421B9041, 0x4224D054, 0x422E9D37, 0x4238FF49, 0x4243FF6A] ++
  [0x424FA700, 0x425C0000, 0x426914F6, 0x4276F110, 0x4282D013, 0x428A9760, 0x4292D517, 0x429B9041,
   0x42A4D054, 0x42AE9D37, 0x42B8FF49, 0x42C3FF6A, 0x42CFA700, 0x42DC0000, 0x42E914F6, 0x42F6F110,
   0x4302D013, 0x430A9760, 0x4312D517, 0x431B9041, 0x4324D054, 0x432E9D37, 0x4338FF49, 0x4343FF6A,
   0x434FA700, 0x435C0000, 0x436914F6, 0x4376F110, 0x4382D013, 0x438A9760, 0x4392D517, 0x439B9041] ++
  [0x43A4D054, 0x43AE9D37, 0x43B8FF49, 0x43C3FF6A, 0x43CFA700, 0x43DC0000, 0x43E914F6, 0x43F6F110,
   0x4402D013, 0x440A9760, 0x4412D517, 0x441B9041, 0x4424D054, 0x442E9D37, 0x4438FF49, 0x4443FF6A,
   0x444FA700, 0x445C0000, 0x446914F6, 0x4476F110, 0x4482D013, 0x448A9760, 0x4492D517, 0x449B9041,
   0x44A4D054, 0x44AE9D37, 0x44B8FF49, 0x44C3FF6A, 0x44CFA700, 0x44DC0000, 0x44E914F6, 0x44F6F110] ++
  [0x4502D013, 0x450A9760, 0x4512D517, 0x451B9041, 0x4524D054, 0x452E9D37, 0x4538FF49, 0x4543FF6A,
   0x454FA700, 0x455C0000, 0x456914F6, 0x4576F110, 0x4582D013, 0x458A9760, 0x4592D517, 0x459B9041,
   0x45A4D054, 0x45AE9D37, 0x45B8FF49, 0x45C3FF6A, 0x45CFA700, 0x45DC0000, 0x45E914F6, 0x45F6F110,
   0x4602D013, 0x460A9760, 0x4612D517, 0x461B9041, 0x4624D054, 0x462E9D37, 0x4638FF49, 0x4643FF6A]

/-- `NOTE_FREQ(k)` (00_scope.md R23). -/
def noteFreq (k : BitVec 7) : F32 := noteFreqTable.getD k.toNat f0

end Sys2Proof.Machine
end

