-- ==== Sys2Proof/Machine/Registers.lean ====
section
/-!
DEFINITION. The configuration registers, the voices and the oscillator slots (10_state.md sections 2, 3, 7), with
their ranges and reset values.
-/

namespace Sys2Proof.Machine

/-! ## Enumerations -/

/-- WaveKind (10_state.md R57). -/
inductive WaveKind where
  | sine
  | pulseRaw
  | sawRaw
  | triangleRaw
  | pulsePoly
  | sawPoly
  | trianglePoly
  deriving DecidableEq, Repr

/-- The code of a wave (10_state.md R57). -/
def WaveKind.code : WaveKind → Nat
  | .sine => 0
  | .pulseRaw => 1
  | .sawRaw => 2
  | .triangleRaw => 3
  | .pulsePoly => 4
  | .sawPoly => 5
  | .trianglePoly => 6

/-- The wave of a code; codes above 6 name none (10_state.md R57). -/
def WaveKind.ofCode : Nat → Option WaveKind
  | 0 => some .sine
  | 1 => some .pulseRaw
  | 2 => some .sawRaw
  | 3 => some .triangleRaw
  | 4 => some .pulsePoly
  | 5 => some .sawPoly
  | 6 => some .trianglePoly
  | _ => none

/-- EnvState (10_state.md R56). -/
inductive EnvState where
  | attack
  | sustain
  | decay
  | release
  | off
  deriving DecidableEq, Repr

/-- The host code of an envelope state (10_state.md R56). -/
def EnvState.code : EnvState → Nat
  | .attack => 0
  | .sustain => 1
  | .decay => 2
  | .release => 3
  | .off => 4

/-- The class of a voice (10_state.md R55); computed, never stored. -/
inductive VoiceClass where
  | idle
  | held
  | releasing
  | silent
  deriving DecidableEq, Repr

/-- The host code of a voice class (10_state.md R55). -/
def VoiceClass.code : VoiceClass → Nat
  | .idle => 0
  | .held => 1
  | .releasing => 2
  | .silent => 3

/-! ## Configuration registers -/

/-- The four floating-point settings of an oscillator slot, in a preset (10_state.md R107). -/
structure WaveSpec where
  oct : F32
  duty : F32
  vol : F32
  detune : F32
  deriving DecidableEq, Repr

/-- A layer preset: COUNT and one WaveSpec per slot (10_state.md R107). -/
structure Preset where
  count : Word
  slots : List WaveSpec
  deriving DecidableEq, Repr

/-- One copy, pending or active, of every configuration and preset register (10_state.md R100). -/
structure Regs where
  sampleRate : Word
  channels : Word
  /-- bits [2:0] of MODE; the others are reserved and read 0 (10_state.md R105) -/
  mode : BitVec 3
  delayLen : Word
  quantBits : Word
  /-- VEL_T[6:0] (10_state.md R106) -/
  tLo : BitVec 7
  /-- VEL_T[14:8] (10_state.md R106) -/
  tHi : BitVec 7
  masterVolume : F32
  voiceGain : F32
  oscGain : F32
  delayGain : F32
  delayFeedback : F32
  delayMix : F32
  vibRate : F32
  vibDepth : F32
  vibOnset : F32
  tremRate : F32
  tremDepth : F32
  attackS : F32
  decayS : F32
  sustain : F32
  releaseS : F32
  envFloor : F32
  filtAFast : F32
  filtASlow : F32
  dcBlock : F32
  pan : F32
  velG0 : F32
  velG1 : F32
  velG2 : F32
  velG3 : F32
  velGmin : F32
  velGmax : F32
  presets : List Preset
  deriving DecidableEq, Repr

/-- MODE.FILTER_EN (10_state.md R105). -/
def Regs.filterEn (R : Regs) : Bool := R.mode.getLsbD 0

/-- MODE.DELAY_ACTIVE (10_state.md R105). -/
def Regs.delayActive (R : Regs) : Bool := R.mode.getLsbD 1

/-- MODE.RETRIG_NEW (10_state.md R105). -/
def Regs.retrigNew (R : Regs) : Bool := R.mode.getLsbD 2

/-- The low end of a floating-point register's legal range: 0.0 for every one (10_state.md R102). -/
def fregLo (_ : FReg) : F32 := f0

/-- The high end of a floating-point register's legal range (10_state.md R102). -/
def fregHi : FReg → F32
  | .masterVolume => 0x41800000
  | .voiceGain => 0x41800000
  | .oscGain => 0x41800000
  | .delayGain => 0x41800000
  | .delayFeedback => 0x3F800000
  | .delayMix => 0x3F800000
  | .vibRate => 0x447A0000
  | .vibDepth => 0x46BB8000
  | .vibOnset => 0x4B800000
  | .tremRate => 0x447A0000
  | .tremDepth => 0x3F800000
  | .attackS => 0x47800000
  | .decayS => 0x47800000
  | .sustain => 0x3F800000
  | .releaseS => 0x47800000
  | .envFloor => 0x3F800000
  | .filtAFast => 0x3F800000
  | .filtASlow => 0x3F800000
  | .dcBlock => 0x3F7FFFFF
  | .pan => 0x3E800000
  | .velG0 => 0x41800000
  | .velG1 => 0x41800000
  | .velG2 => 0x41800000
  | .velG3 => 0x41800000
  | .velGmin => 0x41800000
  | .velGmax => 0x41800000

/-- The reset bits of a floating-point register (10_state.md R102). -/
def fregReset : FReg → F32
  | .masterVolume => 0x3F800000
  | .voiceGain => 0x3F800000
  | .oscGain => 0x3F800000
  | .delayGain => 0x3F800000
  | .delayFeedback => 0x3F000000
  | .delayMix => 0x3F000000
  | .vibRate => 0x40A00000
  | .vibDepth => 0x00000000
  | .vibOnset => 0x3F000000
  | .tremRate => 0x00000000
  | .tremDepth => 0x00000000
  | .attackS => 0x3C800000
  | .decayS => 0x3E000000
  | .sustain => 0x3F400000
  | .releaseS => 0x3E800000
  | .envFloor => 0x38800000
  | .filtAFast => 0x3F800000
  | .filtASlow => 0x00000000
  | .dcBlock => 0x3F7EB852
  | .pan => 0x3E000000
  | .velG0 => 0x3E000000
  | .velG1 => 0x3F000000
  | .velG2 => 0x3FC00000
  | .velG3 => 0x40100000
  | .velGmin => 0x3E000000
  | .velGmax => 0x40100000

/-- The contents of a floating-point register. -/
def Regs.getF (R : Regs) : FReg → F32
  | .masterVolume => R.masterVolume
  | .voiceGain => R.voiceGain
  | .oscGain => R.oscGain
  | .delayGain => R.delayGain
  | .delayFeedback => R.delayFeedback
  | .delayMix => R.delayMix
  | .vibRate => R.vibRate
  | .vibDepth => R.vibDepth
  | .vibOnset => R.vibOnset
  | .tremRate => R.tremRate
  | .tremDepth => R.tremDepth
  | .attackS => R.attackS
  | .decayS => R.decayS
  | .sustain => R.sustain
  | .releaseS => R.releaseS
  | .envFloor => R.envFloor
  | .filtAFast => R.filtAFast
  | .filtASlow => R.filtASlow
  | .dcBlock => R.dcBlock
  | .pan => R.pan
  | .velG0 => R.velG0
  | .velG1 => R.velG1
  | .velG2 => R.velG2
  | .velG3 => R.velG3
  | .velGmin => R.velGmin
  | .velGmax => R.velGmax

/-- Stores the bits `x` in a floating-point register. -/
def Regs.setF (R : Regs) (r : FReg) (x : F32) : Regs :=
  match r with
  | .masterVolume => { R with masterVolume := x }
  | .voiceGain => { R with voiceGain := x }
  | .oscGain => { R with oscGain := x }
  | .delayGain => { R with delayGain := x }
  | .delayFeedback => { R with delayFeedback := x }
  | .delayMix => { R with delayMix := x }
  | .vibRate => { R with vibRate := x }
  | .vibDepth => { R with vibDepth := x }
  | .vibOnset => { R with vibOnset := x }
  | .tremRate => { R with tremRate := x }
  | .tremDepth => { R with tremDepth := x }
  | .attackS => { R with attackS := x }
  | .decayS => { R with decayS := x }
  | .sustain => { R with sustain := x }
  | .releaseS => { R with releaseS := x }
  | .envFloor => { R with envFloor := x }
  | .filtAFast => { R with filtAFast := x }
  | .filtASlow => { R with filtASlow := x }
  | .dcBlock => { R with dcBlock := x }
  | .pan => { R with pan := x }
  | .velG0 => { R with velG0 := x }
  | .velG1 => { R with velG1 := x }
  | .velG2 => { R with velG2 := x }
  | .velG3 => { R with velG3 := x }
  | .velGmin => { R with velGmin := x }
  | .velGmax => { R with velGmax := x }

/-- The low end of a preset field's legal range (10_state.md R107). -/
def pfieldLo : PField → F32
  | .oct => 0x3D800000
  | .duty => f0
  | .vol => f0
  | .detune => 0x3F000000

/-- The high end of a preset field's legal range (10_state.md R107). -/
def pfieldHi : PField → F32
  | .oct => 0x41800000
  | .duty => f1
  | .vol => 0x41800000
  | .detune => f2

/-- A field of a WaveSpec. -/
def WaveSpec.get (W : WaveSpec) : PField → F32
  | .oct => W.oct
  | .duty => W.duty
  | .vol => W.vol
  | .detune => W.detune

/-- Stores the bits `x` in a field of a WaveSpec. -/
def WaveSpec.set (W : WaveSpec) (f : PField) (x : F32) : WaveSpec :=
  match f with
  | .oct => { W with oct := x }
  | .duty => { W with duty := x }
  | .vol => { W with vol := x }
  | .detune => { W with detune := x }

/-- The reset value of a preset's slot (10_state.md R107) and of a voice's slot (R60). -/
def resetSpec : WaveSpec where
  oct := f1
  duty := fHalf
  vol := f1
  detune := f1

/-- The reset value of a preset (10_state.md R107). -/
def resetPreset (P : Params) : Preset where
  count := 1
  slots := List.replicate P.oscMax resetSpec

/-- The reset value of both copies of the configuration (10_state.md R102, R103, R106, R107). -/
def resetRegs (P : Params) : Regs where
  sampleRate := 48000
  channels := 1
  mode := 0
  delayLen := BitVec.ofNat 32 P.delayCap
  quantBits := 0
  tLo := 32
  tHi := 96
  masterVolume := fregReset .masterVolume
  voiceGain := fregReset .voiceGain
  oscGain := fregReset .oscGain
  delayGain := fregReset .delayGain
  delayFeedback := fregReset .delayFeedback
  delayMix := fregReset .delayMix
  vibRate := fregReset .vibRate
  vibDepth := fregReset .vibDepth
  vibOnset := fregReset .vibOnset
  tremRate := fregReset .tremRate
  tremDepth := fregReset .tremDepth
  attackS := fregReset .attackS
  decayS := fregReset .decayS
  sustain := fregReset .sustain
  releaseS := fregReset .releaseS
  envFloor := fregReset .envFloor
  filtAFast := fregReset .filtAFast
  filtASlow := fregReset .filtASlow
  dcBlock := fregReset .dcBlock
  pan := fregReset .pan
  velG0 := fregReset .velG0
  velG1 := fregReset .velG1
  velG2 := fregReset .velG2
  velG3 := fregReset .velG3
  velGmin := fregReset .velGmin
  velGmax := fregReset .velGmax
  presets := List.replicate P.numPresets (resetPreset P)

/-- Preset `p` of a copy of the configuration; every `p < NUM_PRESETS` has one. -/
def Regs.preset (R : Regs) (p : Nat) : Preset := R.presets.getD p { count := 1, slots := [] }

/-- Slot `o` of a preset; every `o < OSC_MAX` has one. -/
def Preset.slot (Q : Preset) (o : Nat) : WaveSpec := Q.slots.getD o resetSpec

/-! ## Voices and oscillator slots -/

/-- An oscillator slot (10_state.md R60). -/
structure Osc where
  wave : WaveKind
  oct : F32
  duty : F32
  vol : F32
  detune : F32
  phase : F32
  elapsed : F32
  lfoPhase : F32
  integ : F32
  dcX : F32
  dcY : F32
  fFast : F32
  fSlow : F32
  envState : EnvState
  envValue : F32
  deriving DecidableEq, Repr

/-- A voice (10_state.md R52) with its oscillator slots; `key = none` is the unassigned key −1. -/
structure Voice where
  active : Bool
  key : Option (BitVec 7)
  amplitude : F32
  baseFreq : F32
  preset : Nat
  count : Nat
  oscs : List Osc
  deriving DecidableEq, Repr

/-- The reset value of an oscillator slot (10_state.md R60). -/
def resetOsc : Osc where
  wave := .sine
  oct := resetSpec.oct
  duty := resetSpec.duty
  vol := resetSpec.vol
  detune := resetSpec.detune
  phase := f0
  elapsed := f0
  lfoPhase := f0
  integ := f0
  dcX := f0
  dcY := f0
  fFast := f0
  fSlow := f0
  envState := .off
  envValue := f0

/-- The reset value of a voice (10_state.md R52). -/
def resetVoice (P : Params) : Voice where
  active := false
  key := none
  amplitude := f0
  baseFreq := f0
  preset := 0
  count := 1
  oscs := List.replicate P.oscMax resetOsc

/-- Slot `o` of a voice; every `o < OSC_MAX` has one. -/
def Voice.osc (v : Voice) (o : Nat) : Osc := v.oscs.getD o resetOsc

/-- The envelope state of slot 0, which stands for the voice (44_filter_mix.md R470). -/
def Voice.envState (v : Voice) : EnvState := (v.osc 0).envState

/-- The class of a voice (10_state.md R55). -/
def Voice.voiceClass (v : Voice) : VoiceClass :=
  if v.active then .held
  else if v.envState = .release then .releasing
  else if v.key = none then .idle
  else .silent

/-- FREE(v) (41_voice_allocator.md R303). -/
def Voice.free (v : Voice) : Bool := !v.active && v.envState == .off

/-- SOUNDING(v) (44_filter_mix.md R470). -/
def Voice.sounding (v : Voice) : Bool :=
  (v.active && v.envState != .off) || (!v.active && v.envState == .release)

end Sys2Proof.Machine
end

