-- ==== Sys2Proof/Machine/State.lean ====
section
/-!
DEFINITION. The state of the block (10_state.md), what stops a step, and the state after reset
(70_reset_and_hazards.md R700, R701).
-/

namespace Sys2Proof.Machine

/-- What happens at the block's inputs in one step of the model (notes 1). -/
inductive HostInput where
  /-- the host issues no transaction, and the engine may take its step -/
  | idle
  /-- the host performs the transaction `T` -/
  | txn (T : BusWord)
  /-- the hardware reset input is asserted (70_reset_and_hazards.md R700) -/
  | hardReset
  deriving DecidableEq, Repr

/-- The state.  The first part is the block's own; the last four fields are the model's, for the two ends of the host
interface and the free values. -/
structure State where
  /-- the instance's parameters, fixed for its life and readable in CFG0-2 (00_scope.md R6, 10_state.md R111) -/
  params : Params
  /-- the voice pool (10_state.md R51, R52, R60) -/
  voices : List Voice
  /-- WAVE_SEL (10_state.md R70) -/
  waveSel : WaveKind
  /-- LAYER_SEL (10_state.md R70) -/
  layerSel : Nat
  /-- the command queue, its head first (10_state.md R71) -/
  queue : List EventWord
  /-- the RAMs DLY and VIS (10_state.md R80, R85) -/
  mem : Memory
  /-- the delay line's read cursor `rd` (10_state.md R80) -/
  delayRd : Nat
  /-- the delay line's write cursor `wr` (10_state.md R80) -/
  delayWr : Nat
  /-- `dlen_dirty` (10_state.md R80) -/
  dlenDirty : Bool
  /-- `vis_wr` (10_state.md R85) -/
  visWr : Nat
  /-- the pending copy of the configuration (10_state.md R100) -/
  pend : Regs
  /-- the active copy of the configuration (10_state.md R100) -/
  active : Regs
  /-- STATUS.RUN (10_state.md R113) -/
  run : Bool
  /-- STATUS.CFG_ERR (10_state.md R113) -/
  cfgErr : Bool
  /-- STATUS.BUS_ERR (10_state.md R113) -/
  busErr : Bool
  /-- STATUS.RENDER_ERR (10_state.md R113) -/
  renderErr : Bool
  /-- STATUS.STOP_PENDING (10_state.md R113) -/
  stopPending : Bool
  /-- STATUS.LAST_ERR (10_state.md R113) -/
  lastErr : BitVec 8
  /-- DROP_COUNT (10_state.md R116) -/
  dropCount : Word
  /-- IGN_COUNT (10_state.md R116) -/
  ignCount : Word
  /-- QOVF_COUNT (10_state.md R116) -/
  qovfCount : Word
  /-- FRAME_COUNT (10_state.md R116) -/
  frameCount : Word
  /-- `frames_left` (10_state.md R131) -/
  framesLeft : Nat
  /-- `frame_idx` (10_state.md R131) -/
  frameIdx : Nat
  /-- the model's: what the host and the reset input do in the coming steps, the next one first (notes 1) -/
  host : List HostInput
  /-- the words emitted on the output stream so far, the newest last (45_delay_output.md R520) -/
  out : List F32
  /-- the model's: the word that the last read transaction returned (notes 9) -/
  rdata : Word
  /-- the model's: how many free values have been drawn (notes 4, 5, 15) -/
  draws : Nat
  deriving DecidableEq, Repr

/-- Why the machine stops with a fault.  There is none: no transaction, event or frame of this block traps or ends it
(60_exceptions.md R604, R605), so no constructor is needed, and that is safe. -/
inductive Fault where
  deriving DecidableEq, Repr

/-- Why a step is refused. -/
inductive Refusal where
  /-- Raised by an arm of `exec` for an instruction that has no meaning in the model (none is left); safe: such a step
  has no next state. -/
  | notModelled (mnemonic : String)
  deriving DecidableEq, Repr

/-- The reset state of an instance with parameters `P` (70_reset_and_hazards.md R701), with nothing at the host
interface yet. -/
def State.resetOf (P : Params) : State where
  params := P
  voices := List.replicate P.voiceMax (resetVoice P)
  waveSel := .sine
  layerSel := 0
  queue := []
  mem := []
  delayRd := 0
  delayWr := 0
  dlenDirty := false
  visWr := 0
  pend := resetRegs P
  active := resetRegs P
  run := false
  cfgErr := false
  busErr := false
  renderErr := false
  stopPending := false
  lastErr := 0
  dropCount := 0
  ignCount := 0
  qovfCount := 0
  frameCount := 0
  framesLeft := 0
  frameIdx := 0
  host := []
  out := []
  rdata := 0
  draws := 0

/-- The reference instance (00_scope.md R6) after power-on. -/
def State.reset : State := State.resetOf Params.reference

end Sys2Proof.Machine
end

