-- ==== Sys2Proof/Machine/Flags.lean ====
section
/-!
DEFINITION. STATUS and its flags (10_state.md R113), the error codes (60_exceptions.md R601), and the status words of
a voice and a slot (10_state.md R120, R121).
-/

namespace Sys2Proof.Machine

/-- BUSY (10_state.md R131). -/
def State.busy (s : State) : Bool := 0 < s.framesLeft

/-- QFULL (10_state.md R113). -/
def State.qfull (s : State) : Bool := s.queue.length == s.params.cmdqDepth

/-- QEMPTY (10_state.md R113). -/
def State.qempty (s : State) : Bool := s.queue.length == 0

/-- The errors of 60_exceptions.md R601. -/
inductive ErrKind where
  | cfgBadRate
  | cfgBadChannels
  | renderNotRunning
  | renderBusy
  | renderBadCount
  | busMisaligned
  deriving DecidableEq, Repr

/-- The code of an error in LAST_ERR (60_exceptions.md R601). -/
def ErrKind.code : ErrKind → BitVec 8
  | .cfgBadRate => 0x01
  | .cfgBadChannels => 0x02
  | .renderNotRunning => 0x10
  | .renderBusy => 0x11
  | .renderBadCount => 0x12
  | .busMisaligned => 0x20

/-- Whether the error's sticky flag is CFG_ERR (60_exceptions.md R601). -/
def ErrKind.setsCfgErr : ErrKind → Bool
  | .cfgBadRate | .cfgBadChannels => true
  | .renderNotRunning | .renderBusy | .renderBadCount | .busMisaligned => false

/-- Whether the error's sticky flag is RENDER_ERR (60_exceptions.md R601). -/
def ErrKind.setsRenderErr : ErrKind → Bool
  | .renderNotRunning | .renderBusy | .renderBadCount => true
  | .cfgBadRate | .cfgBadChannels | .busMisaligned => false

/-- Whether the error's sticky flag is BUS_ERR (60_exceptions.md R601). -/
def ErrKind.setsBusErr : ErrKind → Bool
  | .busMisaligned => true
  | .cfgBadRate | .cfgBadChannels | .renderNotRunning | .renderBusy | .renderBadCount => false

/-- The bits [7:0] of STATUS (10_state.md R113). -/
def statusFlags (s : State) : BitVec 8 :=
  BitVec.ofBool s.stopPending ++ BitVec.ofBool s.qempty ++ BitVec.ofBool s.qfull ++ BitVec.ofBool s.renderErr ++
    BitVec.ofBool s.busErr ++ BitVec.ofBool s.cfgErr ++ BitVec.ofBool s.busy ++ BitVec.ofBool s.run

/-- The STATUS word (10_state.md R113). -/
def statusWord (s : State) : Word :=
  s.lastErr ++ 0#8 ++ BitVec.ofNat 8 s.queue.length ++ statusFlags s

/-- The host encoding of a key: 0xFF for −1 (10_state.md R52). -/
def keyByte : Option (BitVec 7) → BitVec 8
  | none => 0xFF
  | some k => k.setWidth 8

/-- VSTAT of a voice (10_state.md R120). -/
def vstatWord (v : Voice) : Word :=
  0#8 ++ BitVec.ofNat 4 v.count ++ BitVec.ofNat 4 v.preset ++ keyByte v.key ++
    (0#2 ++ BitVec.ofNat 2 v.voiceClass.code ++ BitVec.ofNat 3 v.envState.code ++ BitVec.ofBool v.active)

/-- OSTAT of a slot (10_state.md R121). -/
def ostatWord (o : Osc) : Word :=
  0#25 ++ BitVec.ofNat 3 o.envState.code ++ 0#1 ++ BitVec.ofNat 3 o.wave.code

/-- SEL (10_state.md R118). -/
def selWord (s : State) : Word :=
  0#21 ++ BitVec.ofNat 3 s.layerSel ++ 0#5 ++ BitVec.ofNat 3 s.waveSel.code

/-- CFG0 (10_state.md R111). -/
def cfg0Word (P : Params) : Word :=
  0#8 ++ BitVec.ofNat 8 P.cmdqDepth ++ BitVec.ofNat 4 P.numPresets ++ BitVec.ofNat 4 P.oscMax ++
    BitVec.ofNat 8 P.voiceMax

/-- CFG1 (10_state.md R111). -/
def cfg1Word (P : Params) : Word := 0#15 ++ BitVec.ofNat 17 P.delayCap

/-- CFG2 (10_state.md R111). -/
def cfg2Word (P : Params) : Word := 0#3 ++ BitVec.ofNat 13 P.nmax ++ 0#3 ++ BitVec.ofNat 13 P.visCap

/-- ID: "SGSA" in ASCII (10_state.md R110). -/
def idWord : Word := 0x53475341

end Sys2Proof.Machine
end

