-- ==== Sys2Proof/Machine/Operands.lean ====
section
/-!
DEFINITION. The operand forms: how the 32 data bits of a transaction become the value an instruction uses
(10_state.md R103-R107, 30_encoding.md R207).
-/

namespace Sys2Proof.Machine

/-- The f32 that a write of `w` to a floating-point register with range [lo, hi] stores over `old` (10_state.md
R104): a NaN changes nothing, −0.0 becomes +0.0, every other value is clamped. -/
def writtenF32 (lo hi old w : F32) : F32 :=
  if fIsNaN w then old
  else if w = 0x80000000 then fclamp f0 lo hi
  else fclamp w lo hi

/-- `clamp(w, lo, hi)` on the unsigned value (10_state.md R103). -/
def clampWord (w : Word) (lo hi : Nat) : Word := BitVec.ofNat 32 (min (max w.toNat lo) hi)

/-- What a write of `w` to MODE stores: bits [2:0] (10_state.md R105). -/
def modeBits (w : Word) : BitVec 3 := w.extractLsb' 0 3

/-- T_LO' of a VEL_T write (10_state.md R106). -/
def velLo (w : Word) : BitVec 7 := w.extractLsb' 0 7

/-- T_HI' of a VEL_T write (10_state.md R106). -/
def velHi (w : Word) : BitVec 7 := w.extractLsb' 8 7

/-- Whether a VEL_T write is stored: 0 < T_LO' < T_HI' < 127 (10_state.md R106). -/
def velStored (w : Word) : Bool := 0 < (velLo w).toNat && (velLo w).toNat < (velHi w).toNat && (velHi w).toNat < 127

/-- The event word of an EVENT write: bits [23:0] (10_state.md R114). -/
def eventOf (w : Word) : EventWord := w.extractLsb' 0 24

/-- The frame count of a RENDER write: bits [15:0] (10_state.md R115). -/
def renderFrames (w : Word) : Nat := (w.extractLsb' 0 16).toNat

/-- The VEL_T register's word (10_state.md R106). -/
def velTWord (R : Regs) : Word := (BitVec.setWidth 17 R.tHi ++ 0#1 ++ R.tLo).setWidth 32

/-- The bits a read returns of an integer register (10_state.md R103, R105, R106). -/
def iregWord (R : Regs) : IReg → Word
  | .sampleRate => R.sampleRate
  | .channels => R.channels
  | .mode => R.mode.setWidth 32
  | .delayLen => R.delayLen
  | .quantBits => R.quantBits
  | .velT => velTWord R

end Sys2Proof.Machine
end

