-- ==== Sys2Proof/Machine/Ops.lean ====
section
/-!
DEFINITION. The named operations over the state: raising an error, reset, the latch, register writes, and the queue.

The block has no trap, so nothing is saved on an error and nothing returns from one (60_exceptions.md R604, R605):
the one shared operation is `raise`.
-/

namespace Sys2Proof.Machine

/-- The state with these inputs still to come (the model's field). -/
def withHost (hs : List HostInput) (s : State) : State := { s with host := hs }

/-- The state after a read transaction returned `w`. -/
def returnWord (w : Word) (s : State) : State := { s with rdata := w }

/-- A read transaction that returns a draw: any word (20_memory.md R162). -/
def returnDraw (s : State) : State := { s with rdata := Config.readDraw s.draws, draws := s.draws + 1 }

/-- `raise E` (60_exceptions.md R602): the sticky flag and LAST_ERR, nothing else. -/
def raise (e : ErrKind) (s : State) : State :=
  { s with
    cfgErr := s.cfgErr || e.setsCfgErr
    busErr := s.busErr || e.setsBusErr
    renderErr := s.renderErr || e.setsRenderErr
    lastErr := e.code }

/-- Reset of the block (70_reset_and_hazards.md R700).  The parameters do not change, and the words already emitted
stay emitted; the two ends of the host interface are not the block's. -/
def resetBlock (s : State) : State :=
  { State.resetOf s.params with host := s.host, out := s.out, rdata := s.rdata, draws := s.draws }

/-- The pending copy replaced. -/
def withPend (R : Regs) (s : State) : State := { s with pend := R }

/-- A write of `w` to a floating-point configuration register (10_state.md R104). -/
def writeFReg (r : FReg) (w : Word) (s : State) : State :=
  withPend (s.pend.setF r (writtenF32 (fregLo r) (fregHi r) (s.pend.getF r) w)) s

/-- The preset with slot `o`'s field `f` written (10_state.md R104, R107). -/
def writtenPreset (o : Nat) (f : PField) (w : Word) (Q : Preset) : Preset :=
  { Q with slots := Q.slots.modify o fun W => W.set f (writtenF32 (pfieldLo f) (pfieldHi f) (W.get f) w) }

/-- The pending copy with preset `p` changed by `g`. -/
def modifyPreset (p : Nat) (g : Preset → Preset) (s : State) : State :=
  withPend { s.pend with presets := s.pend.presets.modify p g } s

/-- A write of `w` to field `f` of slot `o` of preset `p` (10_state.md R107). -/
def writePField (p o : BitVec 3) (f : PField) (w : Word) (s : State) : State :=
  modifyPreset p.toNat (writtenPreset o.toNat f w) s

/-- LATCH (10_state.md R101). -/
def latch (s : State) : State :=
  { s with
    active := s.pend
    delayRd :=
      if s.dlenDirty then
        (((s.delayWr : Int) - (s.pend.delayLen.toNat : Int)) % (s.params.delayCap : Int)).toNat
      else s.delayRd
    dlenDirty := false }

/-- `count_inc` on DROP_COUNT (41_voice_allocator.md R304). -/
def countDrop (s : State) : State := { s with dropCount := s.dropCount + 1 }

/-- `count_inc` on IGN_COUNT (41_voice_allocator.md R320). -/
def countIgn (s : State) : State := { s with ignCount := s.ignCount + 1 }

/-- `count_inc` on QOVF_COUNT (40_host_commands.md R260). -/
def countQovf (s : State) : State := { s with qovfCount := s.qovfCount + 1 }

/-- Whether a clear of this counter may race with an increment by the engine (40_host_commands.md R254): while BUSY = 1,
and never for QOVF_COUNT, which only a host write increments (R260; notes 15). -/
def clearRaces (c : Counter) (s : State) : Bool := s.busy && c != .qovf

/-- What a clear leaves in the counter: 0, or a free choice of 0 and 1 where it may race (40_host_commands.md R254). -/
def clearedCount (c : Counter) (s : State) : Word := if clearRaces c s && Config.clearDraw s.draws then 1 else 0

/-- A diagnostic counter cleared (40_host_commands.md R254); a clear that may race takes a draw. -/
def clearCounter (c : Counter) (s : State) : State :=
  let n := clearedCount c s
  let d := if clearRaces c s then s.draws + 1 else s.draws
  match c with
  | .drop => { s with dropCount := n, draws := d }
  | .ign => { s with ignCount := n, draws := d }
  | .qovf => { s with qovfCount := n, draws := d }

/-- The command queue replaced. -/
def withQueue (q : List EventWord) (s : State) : State := { s with queue := q }

/-- An event pushed, or counted when the queue is full (40_host_commands.md R260). -/
def pushEvent (e : EventWord) (s : State) : State :=
  if s.queue.length < s.params.cmdqDepth then withQueue (s.queue ++ [e]) s else countQovf s

/-- The voice pool replaced. -/
def withVoices (vs : List Voice) (s : State) : State := { s with voices := vs }

/-- Voice `v` of the pool; every `v < VOICE_MAX` has one. -/
def State.voice (s : State) (v : Nat) : Voice := s.voices.getD v (resetVoice s.params)

/-- Voice `v` replaced. -/
def setVoice (v : Nat) (x : Voice) (s : State) : State := withVoices (s.voices.set v x) s

/-- A RAM word written (00_scope.md R9). -/
def storeWord (sp : Space) (i : Nat) (w : Word) (s : State) : State := { s with mem := memWrite s.mem sp i w }

/-- `emit(y)` (45_delay_output.md R520). -/
def emit (y : F32) (s : State) : State := { s with out := s.out ++ [y] }

end Sys2Proof.Machine
end

