-- ==== Sys2Proof/Machine/Bus.lean ====
section
/-!
DEFINITION. Reads of the host's address space (40_host_commands.md R251, 20_memory.md R152-R157), and the misaligned
transaction (R154).
-/

namespace Sys2Proof.Machine

/-- Word `j` of a voice's window (10_state.md R120). -/
def voiceWindow (v : Voice) (j : Nat) : Word :=
  match j with
  | 0 => vstatWord v
  | 1 => v.amplitude
  | 2 => v.baseFreq
  | _ => 0

/-- Word `j` of a slot's window (10_state.md R121). -/
def oscWindow (o : Osc) (j : Nat) : Word :=
  [ostatWord o, o.phase, o.envValue, o.elapsed, o.lfoPhase, o.integ, o.dcX, o.dcY, o.fFast, o.fSlow,
   o.oct, o.duty, o.vol, o.detune].getD j 0

/-- Whether a location is engine-written state: the voice and slot windows, DLY, VIS, the cursors, FRAME_COUNT,
DROP_COUNT, IGN_COUNT and SEL (20_memory.md R162). -/
def engineWritten : Loc → Bool
  | .voice _ _ | .osc _ _ _ | .vis _ | .dly _ | .delayRd | .delayWr | .visWr | .frameCount | .dropCount | .ignCount
  | .sel => true
  | .id | .cfg0 | .cfg1 | .cfg2 | .ctrl | .status | .event | .renderReq | .qovfCount | .int _ | .flt _
  | .presetCount _ | .presetField _ _ _ | .unmapped => false

/-- The word a location holds (10_state.md R100-R121, 20_memory.md R153, R156, R157): the pending copy of a register,
0 for a write-only register and an unmapped address. -/
def locWord (s : State) : Loc → Word
  | .id => idWord
  | .cfg0 => cfg0Word s.params
  | .cfg1 => cfg1Word s.params
  | .cfg2 => cfg2Word s.params
  | .ctrl => (BitVec.ofBool s.run).setWidth 32
  | .status => statusWord s
  | .event => 0
  | .renderReq => 0
  | .dropCount => s.dropCount
  | .ignCount => s.ignCount
  | .qovfCount => s.qovfCount
  | .frameCount => s.frameCount
  | .delayRd => BitVec.ofNat 32 s.delayRd
  | .delayWr => BitVec.ofNat 32 s.delayWr
  | .visWr => BitVec.ofNat 32 s.visWr
  | .sel => selWord s
  | .int r => iregWord s.pend r
  | .flt r => s.pend.getF r
  | .presetCount p => (s.pend.preset p.toNat).count
  | .presetField p o f => ((s.pend.preset p.toNat).slot o.toNat).get f
  | .voice v j => voiceWindow (s.voice v) j
  | .osc v o j => oscWindow ((s.voice v).osc o) j
  | .vis i => memRead s.mem .vis i
  | .dly i => memRead s.mem .dly i
  | .unmapped => 0

/-- The state after a read of the location `l` (40_host_commands.md R251). -/
def readLoc (l : Loc) (s : State) : State :=
  if engineWritten l && s.busy then returnDraw s else returnWord (locWord s l) s

/-- RD (40_host_commands.md R251). -/
def execRd (addr : BusAddr) (s : State) : Host.Outcome State Fault Refusal := .next (readLoc (locate s.params addr) s)

/-- BUS_MISALIGNED (20_memory.md R154): BUS_ERR and LAST_ERR = 0x20, nothing else; a misaligned read returns 0. -/
def execBusMisaligned (rw : Bool) (_addr : BusAddr) (_w : Word) (s : State) : Host.Outcome State Fault Refusal :=
  .next (raise .busMisaligned (if rw then s else returnWord 0 s))

end Sys2Proof.Machine
end

