-- ==== Sys2Proof/Machine/ConfigWrites.lean ====
section
/-!
DEFINITION. The meanings of the configuration writes (40_host_commands.md R252, R253) and of the write that changes
nothing (20_memory.md R153).  They change the pending copy only; the active copy changes at the next latch.
-/

namespace Sys2Proof.Machine

/-! ## Integer registers (40_host_commands.md R253) -/

/-- WR_SAMPLE_RATE: stored as written, ignored while RUN = 1 (10_state.md R103, R108). -/
def execWrSampleRate (w : Word) (s : State) : Host.Outcome State Fault Refusal :=
  .next (if s.run then s else withPend { s.pend with sampleRate := w } s)

/-- WR_CHANNELS: stored as written, ignored while RUN = 1 (10_state.md R103, R108). -/
def execWrChannels (w : Word) (s : State) : Host.Outcome State Fault Refusal :=
  .next (if s.run then s else withPend { s.pend with channels := w } s)

/-- WR_MODE: bits [2:0] (10_state.md R105). -/
def execWrMode (w : Word) (s : State) : Host.Outcome State Fault Refusal :=
  .next (withPend { s.pend with mode := modeBits w } s)

/-- WR_DELAY_LEN: clamped to 1 .. DELAY_CAP, and `dlen_dirty` set even when the value does not change (10_state.md
R103). -/
def execWrDelayLen (w : Word) (s : State) : Host.Outcome State Fault Refusal :=
  .next { withPend { s.pend with delayLen := clampWord w 1 s.params.delayCap } s with dlenDirty := true }

/-- WR_QUANT_BITS: at most 24 (10_state.md R103). -/
def execWrQuantBits (w : Word) (s : State) : Host.Outcome State Fault Refusal :=
  .next (withPend { s.pend with quantBits := clampWord w 0 24 } s)

/-- WR_VEL_T: stored only if 0 < T_LO < T_HI < 127 (10_state.md R106). -/
def execWrVelT (w : Word) (s : State) : Host.Outcome State Fault Refusal :=
  .next (if velStored w then withPend { s.pend with tLo := velLo w, tHi := velHi w } s else s)

/-! ## Floating-point registers (40_host_commands.md R252) -/

/-- WR_F32_MASTER_VOLUME. -/
def execWrF32MasterVolume (w : Word) (s : State) : Host.Outcome State Fault Refusal := .next (writeFReg .masterVolume w s)

/-- WR_F32_VOICE_GAIN. -/
def execWrF32VoiceGain (w : Word) (s : State) : Host.Outcome State Fault Refusal := .next (writeFReg .voiceGain w s)

/-- WR_F32_OSC_GAIN. -/
def execWrF32OscGain (w : Word) (s : State) : Host.Outcome State Fault Refusal := .next (writeFReg .oscGain w s)

/-- WR_F32_DELAY_GAIN. -/
def execWrF32DelayGain (w : Word) (s : State) : Host.Outcome State Fault Refusal := .next (writeFReg .delayGain w s)

/-- WR_F32_DELAY_FEEDBACK. -/
def execWrF32DelayFeedback (w : Word) (s : State) : Host.Outcome State Fault Refusal := .next (writeFReg .delayFeedback w s)

/-- WR_F32_DELAY_MIX. -/
def execWrF32DelayMix (w : Word) (s : State) : Host.Outcome State Fault Refusal := .next (writeFReg .delayMix w s)

/-- WR_F32_VIB_RATE. -/
def execWrF32VibRate (w : Word) (s : State) : Host.Outcome State Fault Refusal := .next (writeFReg .vibRate w s)

/-- WR_F32_VIB_DEPTH. -/
def execWrF32VibDepth (w : Word) (s : State) : Host.Outcome State Fault Refusal := .next (writeFReg .vibDepth w s)

/-- WR_F32_VIB_ONSET. -/
def execWrF32VibOnset (w : Word) (s : State) : Host.Outcome State Fault Refusal := .next (writeFReg .vibOnset w s)

/-- WR_F32_TREM_RATE. -/
def execWrF32TremRate (w : Word) (s : State) : Host.Outcome State Fault Refusal := .next (writeFReg .tremRate w s)

/-- WR_F32_TREM_DEPTH. -/
def execWrF32TremDepth (w : Word) (s : State) : Host.Outcome State Fault Refusal := .next (writeFReg .tremDepth w s)

/-- WR_F32_ATTACK_S. -/
def execWrF32AttackS (w : Word) (s : State) : Host.Outcome State Fault Refusal := .next (writeFReg .attackS w s)

/-- WR_F32_DECAY_S. -/
def execWrF32DecayS (w : Word) (s : State) : Host.Outcome State Fault Refusal := .next (writeFReg .decayS w s)

/-- WR_F32_SUSTAIN. -/
def execWrF32Sustain (w : Word) (s : State) : Host.Outcome State Fault Refusal := .next (writeFReg .sustain w s)

/-- WR_F32_RELEASE_S. -/
def execWrF32ReleaseS (w : Word) (s : State) : Host.Outcome State Fault Refusal := .next (writeFReg .releaseS w s)

/-- WR_F32_ENV_FLOOR. -/
def execWrF32EnvFloor (w : Word) (s : State) : Host.Outcome State Fault Refusal := .next (writeFReg .envFloor w s)

/-- WR_F32_FILT_A_FAST. -/
def execWrF32FiltAFast (w : Word) (s : State) : Host.Outcome State Fault Refusal := .next (writeFReg .filtAFast w s)

/-- WR_F32_FILT_A_SLOW. -/
def execWrF32FiltASlow (w : Word) (s : State) : Host.Outcome State Fault Refusal := .next (writeFReg .filtASlow w s)

/-- WR_F32_DC_BLOCK. -/
def execWrF32DcBlock (w : Word) (s : State) : Host.Outcome State Fault Refusal := .next (writeFReg .dcBlock w s)

/-- WR_F32_PAN. -/
def execWrF32Pan (w : Word) (s : State) : Host.Outcome State Fault Refusal := .next (writeFReg .pan w s)

/-- WR_F32_VEL_G0. -/
def execWrF32VelG0 (w : Word) (s : State) : Host.Outcome State Fault Refusal := .next (writeFReg .velG0 w s)

/-- WR_F32_VEL_G1. -/
def execWrF32VelG1 (w : Word) (s : State) : Host.Outcome State Fault Refusal := .next (writeFReg .velG1 w s)

/-- WR_F32_VEL_G2. -/
def execWrF32VelG2 (w : Word) (s : State) : Host.Outcome State Fault Refusal := .next (writeFReg .velG2 w s)

/-- WR_F32_VEL_G3. -/
def execWrF32VelG3 (w : Word) (s : State) : Host.Outcome State Fault Refusal := .next (writeFReg .velG3 w s)

/-- WR_F32_VEL_GMIN. -/
def execWrF32VelGmin (w : Word) (s : State) : Host.Outcome State Fault Refusal := .next (writeFReg .velGmin w s)

/-- WR_F32_VEL_GMAX. -/
def execWrF32VelGmax (w : Word) (s : State) : Host.Outcome State Fault Refusal := .next (writeFReg .velGmax w s)

/-! ## Presets (10_state.md R107) -/

/-- WR_PRESET_COUNT: clamped to 1 .. OSC_MAX (40_host_commands.md R253). -/
def execWrPresetCount (p : BitVec 3) (w : Word) (s : State) : Host.Outcome State Fault Refusal :=
  .next (modifyPreset p.toNat (fun Q => { Q with count := clampWord w 1 s.params.oscMax }) s)

/-- WR_PRESET_OCT (40_host_commands.md R252). -/
def execWrPresetOct (p o : BitVec 3) (w : Word) (s : State) : Host.Outcome State Fault Refusal := .next (writePField p o .oct w s)

/-- WR_PRESET_DUTY (40_host_commands.md R252). -/
def execWrPresetDuty (p o : BitVec 3) (w : Word) (s : State) : Host.Outcome State Fault Refusal := .next (writePField p o .duty w s)

/-- WR_PRESET_VOL (40_host_commands.md R252). -/
def execWrPresetVol (p o : BitVec 3) (w : Word) (s : State) : Host.Outcome State Fault Refusal := .next (writePField p o .vol w s)

/-- WR_PRESET_DETUNE (40_host_commands.md R252). -/
def execWrPresetDetune (p o : BitVec 3) (w : Word) (s : State) : Host.Outcome State Fault Refusal := .next (writePField p o .detune w s)

/-- WR_IGNORED: a write to a read-only or unmapped address (20_memory.md R153). -/
def execWrIgnored (_addr : BusAddr) (_w : Word) (s : State) : Host.Outcome State Fault Refusal := .next s

end Sys2Proof.Machine
end

