-- ==== Sys2Proof/Machine/Allocator.lean ====
section
/-!
DEFINITION. The events (41_voice_allocator.md): the voice allocator, Note-Off, the control changes, the ignored words,
and the buffer boundary that runs them.  The active copy of the configuration is the one in force.
-/

namespace Sys2Proof.Machine

/-! ## Note-On -/

/-- The segment of the velocity curve a velocity lies in: its two ends and their gains (41_voice_allocator.md
R306). -/
def velSegment (R : Regs) (vel : Nat) : Nat × F32 × Nat × F32 :=
  if vel ≤ R.tLo.toNat then (0, R.velG0, R.tLo.toNat, R.velG1)
  else if vel ≤ R.tHi.toNat then (R.tLo.toNat, R.velG1, R.tHi.toNat, R.velG2)
  else (R.tHi.toNat, R.velG2, 127, R.velG3)

/-- VELCURVE (41_voice_allocator.md R306). -/
def velCurve (R : Regs) (vel : BitVec 7) : F32 :=
  let (xa, ga, xb, gb) := velSegment R vel.toNat
  let t := fdiv (fofNat (vel.toNat - xa)) (fofNat (xb - xa))
  fclamp (fadd ga (fmul (fsub gb ga) t)) R.velGmin R.velGmax

/-- A slot initialized by INIT_VOICE (41_voice_allocator.md R305): `W` is the preset's slot, `p` the phase draw, `e0`
the envelope value kept. -/
def initOsc (wave : WaveKind) (W : WaveSpec) (p e0 : F32) : Osc where
  wave := wave
  oct := W.oct
  duty := W.duty
  vol := W.vol
  detune := W.detune
  phase := p
  elapsed := f0
  lfoPhase := f0
  integ := f0
  dcX := f0
  dcY := f0
  fFast := f0
  fSlow := f0
  envState := .attack
  envValue := e0

/-- The voice after INIT_VOICE (41_voice_allocator.md R305), with the phase draws of its slots numbered from
`draws`; `old` is the voice before. -/
def initVoice (P : Params) (R : Regs) (wave : WaveKind) (layer draws : Nat) (k vel : BitVec 7) (old : Voice) : Voice where
  active := true
  key := some k
  amplitude := velCurve R vel
  baseFreq := noteFreq k
  preset := layer
  count := (R.preset layer).count.toNat
  oscs := (List.range P.oscMax).map fun o =>
    initOsc wave ((R.preset layer).slot o) (drawPhase (draws + o)) (old.osc 0).envValue

/-- The lowest active voice that holds key `k`, if any (41_voice_allocator.md R301). -/
def heldVoice (vs : List Voice) (k : BitVec 7) : Option Nat := vs.findIdx? fun v => v.active && v.key == some k

/-- The lowest free voice, if any (41_voice_allocator.md R303). -/
def freeVoice (vs : List Voice) : Option Nat := vs.findIdx? Voice.free

/-- The voice a Note-On for key `k` takes (41_voice_allocator.md R301, R302). -/
def noteTarget (s : State) (k : BitVec 7) : Option Nat :=
  match (if s.active.retrigNew then none else heldVoice s.voices k) with
  | some v => some v
  | none => freeVoice s.voices

/-- NOTE_ON (41_voice_allocator.md R301). -/
def noteOn (k vel : BitVec 7) (s : State) : State :=
  match noteTarget s k with
  | none => countDrop s
  | some v =>
    { setVoice v (initVoice s.params s.active s.waveSel s.layerSel s.draws k vel (s.voice v)) s with
      draws := s.draws + s.params.oscMax }

/-! ## Note-Off -/

/-- A voice after NOTE_OFF for key `k` (41_voice_allocator.md R310): released if it is active and holds the key. -/
def releaseVoice (k : BitVec 7) (v : Voice) : Voice :=
  if v.active && v.key == some k then
    { v with active := false, oscs := v.oscs.map fun o => { o with envState := .release } }
  else v

/-- NOTE_OFF (41_voice_allocator.md R310). -/
def noteOff (k : BitVec 7) (s : State) : State := withVoices (s.voices.map (releaseVoice k)) s

/-! ## Control changes -/

/-- CC_WAVE (41_voice_allocator.md R315). -/
def selectWave (d : BitVec 7) (s : State) : State :=
  match WaveKind.ofCode d.toNat with
  | some w => { s with waveSel := w }
  | none => s

/-- CC_LAYER (41_voice_allocator.md R316). -/
def selectLayer (d : BitVec 7) (s : State) : State :=
  if d.toNat < s.params.numPresets then { s with layerSel := d.toNat } else s

/-! ## The boundary -/

/-- EXEC of a decoded event (41_voice_allocator.md R300). -/
def applyEvent (e : Event) (s : State) : State :=
  match e with
  | .reserved _ => countIgn s
  | .badData _ => countIgn s
  | .noteOff _ k _ => noteOff k s
  | .noteOn _ k vel => noteOn k vel s
  | .ccWave _ d => selectWave d s
  | .ccLayer _ d => selectLayer d s
  | .ccOther _ _ _ => s

/-- The next `n` events popped and executed, in queue order (41_voice_allocator.md R300). -/
def drain : Nat → State → State
  | 0, s => s
  | n + 1, s =>
    match s.queue with
    | [] => s
    | e :: q => drain n (applyEvent (decodeEvent s.params e) (withQueue q s))

/-- BOUNDARY (41_voice_allocator.md R300). -/
def boundary (s : State) : State := drain s.queue.length (latch s)

/-! ## The meanings of the event instructions -/

/-- EV_RESERVED (41_voice_allocator.md R320). -/
def execEvReserved (_e : EventWord) (s : State) : Host.Outcome State Fault Refusal := .next (countIgn s)

/-- EV_BADDATA (41_voice_allocator.md R320). -/
def execEvBaddata (_e : EventWord) (s : State) : Host.Outcome State Fault Refusal := .next (countIgn s)

/-- NOTE_OFF (41_voice_allocator.md R310); CHAN and the release velocity are ignored. -/
def execNoteOff (_ch : BitVec 4) (k _rv : BitVec 7) (s : State) : Host.Outcome State Fault Refusal := .next (noteOff k s)

/-- NOTE_ON (41_voice_allocator.md R301); CHAN is ignored. -/
def execNoteOn (_ch : BitVec 4) (k vel : BitVec 7) (s : State) : Host.Outcome State Fault Refusal := .next (noteOn k vel s)

/-- CC_WAVE (41_voice_allocator.md R315). -/
def execCcWave (_ch : BitVec 4) (d : BitVec 7) (s : State) : Host.Outcome State Fault Refusal := .next (selectWave d s)

/-- CC_LAYER (41_voice_allocator.md R316). -/
def execCcLayer (_ch : BitVec 4) (d : BitVec 7) (s : State) : Host.Outcome State Fault Refusal := .next (selectLayer d s)

/-- CC_OTHER (41_voice_allocator.md R317): no effect. -/
def execCcOther (_ch : BitVec 4) (_ctl _d : BitVec 7) (s : State) : Host.Outcome State Fault Refusal := .next s

end Sys2Proof.Machine
end

