-- ==== Sys2Proof/Machine/Control.lean ====
section
/-!
DEFINITION. The meanings of the control transactions (40_host_commands.md R254-R262): the counters, CTRL, STATUS,
EVENT and RENDER.
-/

namespace Sys2Proof.Machine

/-- CNT_CLEAR (40_host_commands.md R254); the data is ignored. -/
def execCntClear (c : Counter) (_w : Word) (s : State) : Host.Outcome State Fault Refusal := .next (clearCounter c s)

/-- Whether the pending sample rate is in [SR_MIN, SR_MAX] (40_host_commands.md R256). -/
def legalRate (s : State) : Bool := s.params.srMin ≤ s.pend.sampleRate.toNat && s.pend.sampleRate.toNat ≤ s.params.srMax

/-- Whether the pending channel count is 1 or 2 (40_host_commands.md R256). -/
def legalChannels (s : State) : Bool := s.pend.channels == 1 || s.pend.channels == 2

/-- CTRL_START (40_host_commands.md R256). -/
def execCtrlStart (_w : Word) (s : State) : Host.Outcome State Fault Refusal :=
  .next
    (if s.run then { s with stopPending := false }
     else if !legalRate s then raise .cfgBadRate s
     else if !legalChannels s then raise .cfgBadChannels s
     else { s with run := true })

/-- CTRL_STOP (40_host_commands.md R257). -/
def execCtrlStop (_w : Word) (s : State) : Host.Outcome State Fault Refusal :=
  .next
    (if !s.run then s
     else if s.busy then { s with stopPending := true }
     else { s with run := false })

/-- CTRL_SOFT_RESET (40_host_commands.md R258). -/
def execCtrlSoftReset (_w : Word) (s : State) : Host.Outcome State Fault Refusal := .next (resetBlock s)

/-- STATUS_W1C (40_host_commands.md R259): LAST_ERR stays. -/
def execStatusW1c (w : Word) (s : State) : Host.Outcome State Fault Refusal :=
  .next
    { s with
      cfgErr := s.cfgErr && !w.getLsbD 2
      busErr := s.busErr && !w.getLsbD 3
      renderErr := s.renderErr && !w.getLsbD 4 }

/-- EV_PUSH (40_host_commands.md R260); bits [31:24] are ignored. -/
def execEvPush (w : Word) (s : State) : Host.Outcome State Fault Refusal := .next (pushEvent (eventOf w) s)

/-- An accepted render of `n` frames: the boundary, then `frames_left` and `frame_idx` (40_host_commands.md R262). -/
def startRender (n : Nat) (s : State) : State := { boundary s with framesLeft := n, frameIdx := 0 }

/-- RENDER (40_host_commands.md R262); the checks in their order, 60_exceptions.md R603. -/
def execRender (w : Word) (s : State) : Host.Outcome State Fault Refusal :=
  .next
    (if !s.run then raise .renderNotRunning s
     else if s.busy then raise .renderBusy s
     else if renderFrames w = 0 ∨ s.params.nmax < renderFrames w then raise .renderBadCount s
     else startRender (renderFrames w) s)

end Sys2Proof.Machine
end

