-- ==== Sys2Proof/Machine/Dispatch.lean ====
section
/-!
DEFINITION. The meaning of every instruction: one arm per constructor of Instr, each one call of its meaning.
-/

namespace Sys2Proof.Machine

def exec (i : Instr) (s : State) : Host.Outcome State Fault Refusal :=
  match i with
  | .busMisaligned rw addr w => Sys2Proof.Machine.execBusMisaligned rw addr w s
  | .rd addr => Sys2Proof.Machine.execRd addr s
  | .ctrlSoftReset w => Sys2Proof.Machine.execCtrlSoftReset w s
  | .ctrlStart w => Sys2Proof.Machine.execCtrlStart w s
  | .ctrlStop w => Sys2Proof.Machine.execCtrlStop w s
  | .statusW1c w => Sys2Proof.Machine.execStatusW1c w s
  | .evPush w => Sys2Proof.Machine.execEvPush w s
  | .render w => Sys2Proof.Machine.execRender w s
  | .cntClear c w => Sys2Proof.Machine.execCntClear c w s
  | .wrSampleRate w => Sys2Proof.Machine.execWrSampleRate w s
  | .wrChannels w => Sys2Proof.Machine.execWrChannels w s
  | .wrMode w => Sys2Proof.Machine.execWrMode w s
  | .wrDelayLen w => Sys2Proof.Machine.execWrDelayLen w s
  | .wrQuantBits w => Sys2Proof.Machine.execWrQuantBits w s
  | .wrVelT w => Sys2Proof.Machine.execWrVelT w s
  | .wrF32MasterVolume w => Sys2Proof.Machine.execWrF32MasterVolume w s
  | .wrF32VoiceGain w => Sys2Proof.Machine.execWrF32VoiceGain w s
  | .wrF32OscGain w => Sys2Proof.Machine.execWrF32OscGain w s
  | .wrF32DelayGain w => Sys2Proof.Machine.execWrF32DelayGain w s
  | .wrF32DelayFeedback w => Sys2Proof.Machine.execWrF32DelayFeedback w s
  | .wrF32DelayMix w => Sys2Proof.Machine.execWrF32DelayMix w s
  | .wrF32VibRate w => Sys2Proof.Machine.execWrF32VibRate w s
  | .wrF32VibDepth w => Sys2Proof.Machine.execWrF32VibDepth w s
  | .wrF32VibOnset w => Sys2Proof.Machine.execWrF32VibOnset w s
  | .wrF32TremRate w => Sys2Proof.Machine.execWrF32TremRate w s
  | .wrF32TremDepth w => Sys2Proof.Machine.execWrF32TremDepth w s
  | .wrF32AttackS w => Sys2Proof.Machine.execWrF32AttackS w s
  | .wrF32DecayS w => Sys2Proof.Machine.execWrF32DecayS w s
  | .wrF32Sustain w => Sys2Proof.Machine.execWrF32Sustain w s
  | .wrF32ReleaseS w => Sys2Proof.Machine.execWrF32ReleaseS w s
  | .wrF32EnvFloor w => Sys2Proof.Machine.execWrF32EnvFloor w s
  | .wrF32FiltAFast w => Sys2Proof.Machine.execWrF32FiltAFast w s
  | .wrF32FiltASlow w => Sys2Proof.Machine.execWrF32FiltASlow w s
  | .wrF32DcBlock w => Sys2Proof.Machine.execWrF32DcBlock w s
  | .wrF32Pan w => Sys2Proof.Machine.execWrF32Pan w s
  | .wrF32VelG0 w => Sys2Proof.Machine.execWrF32VelG0 w s
  | .wrF32VelG1 w => Sys2Proof.Machine.execWrF32VelG1 w s
  | .wrF32VelG2 w => Sys2Proof.Machine.execWrF32VelG2 w s
  | .wrF32VelG3 w => Sys2Proof.Machine.execWrF32VelG3 w s
  | .wrF32VelGmin w => Sys2Proof.Machine.execWrF32VelGmin w s
  | .wrF32VelGmax w => Sys2Proof.Machine.execWrF32VelGmax w s
  | .wrPresetCount p w => Sys2Proof.Machine.execWrPresetCount p w s
  | .wrPresetOct p o w => Sys2Proof.Machine.execWrPresetOct p o w s
  | .wrPresetDuty p o w => Sys2Proof.Machine.execWrPresetDuty p o w s
  | .wrPresetVol p o w => Sys2Proof.Machine.execWrPresetVol p o w s
  | .wrPresetDetune p o w => Sys2Proof.Machine.execWrPresetDetune p o w s
  | .wrIgnored addr w => Sys2Proof.Machine.execWrIgnored addr w s
  | .evReserved e => Sys2Proof.Machine.execEvReserved e s
  | .evBaddata e => Sys2Proof.Machine.execEvBaddata e s
  | .noteOff ch k rv => Sys2Proof.Machine.execNoteOff ch k rv s
  | .noteOn ch k vel => Sys2Proof.Machine.execNoteOn ch k vel s
  | .ccWave ch d => Sys2Proof.Machine.execCcWave ch d s
  | .ccLayer ch d => Sys2Proof.Machine.execCcLayer ch d s
  | .ccOther ch ctl d => Sys2Proof.Machine.execCcOther ch ctl d s

end Sys2Proof.Machine
end

