-- ==== Sys2Proof/Machine/Oscillator.lean ====
section
/-!
DEFINITION. One sample of one oscillator slot: the generators (42_oscillator.md R351-R362), the modulation (R370-R375),
the envelope (43_envelope.md R420-R426), the filter and soft clip (44_filter_mix.md R460-R463), and OSC_STEP (R389).
`R` is the active copy of the configuration.
-/

namespace Sys2Proof.Machine

/-- `sr_f` (10_state.md R103). -/
def srF (R : Regs) : F32 := fofNat R.sampleRate.toNat

/-- `inv_sr` (10_state.md R103). -/
def invSr (R : Regs) : F32 := fdiv f1 (srF R)

/-! ## Generators -/

/-- The raw square ±1.0 (42_oscillator.md R352). -/
def rawSquare (p duty : F32) : F32 := if flt p duty then f1 else fneg f1

/-- The raw saw `(2.0 × p) − 1.0` (42_oscillator.md R353); its product with a subnormal amplitude can round to that
amplitude (notes 22). -/
def rawSaw (p : F32) : F32 := fsub (fmul f2 p) f1

/-- The raw triangle `(2.0 × |2.0 × (p − 0.5)|) − 1.0` (42_oscillator.md R354). -/
def rawTriangle (p : F32) : F32 := fsub (fmul f2 (fabs (fmul f2 (fsub p fHalf)))) f1

/-- PB(dt, t), the step-correction kernel (42_oscillator.md R355).  Rounded as 00_scope.md R20 says, it can be +0.0 inside a
window, and at t = 1.0 for dt at most 2^-25, where the bounds that R356 derives say otherwise; R355 is followed (notes 19). -/
def polyBlep (dt t : F32) : F32 :=
  if fle dt f0 then f0
  else if flt t dt then
    let u := fdiv t dt
    fsub (fsub (fadd u u) (fmul u u)) f1
  else if flt (fsub f1 dt) t then
    let u := fdiv (fsub t f1) dt
    fadd (fadd (fadd (fmul u u) u) u) f1
  else f0

/-- PBSQ(dt, p, duty), the band-limited square (42_oscillator.md R357). -/
def polySquare (dt p duty : F32) : F32 :=
  let q := rawSquare p duty
  let t2 := fsub p duty
  let t2 := if flt t2 f0 then fadd t2 f1 else t2
  fsub (fadd q (polyBlep dt p)) (polyBlep dt t2)

/-- TrianglePoly (42_oscillator.md R360): the leaky integral of the band-limited square at duty 0.5, through the DC
blocker; the slot's `integ`, `dc_x` and `dc_y` change.  A subnormal `integ` can stay as it is (notes 22). -/
def trianglePoly (R : Regs) (amp dt : F32) (o : Osc) : F32 × Osc :=
  let sq := polySquare dt o.phase fHalf
  let integ := fadd (fmul R.dcBlock o.integ) (fmul (fmul f4 dt) sq)
  let yn := fadd (fsub integ o.dcX) (fmul R.dcBlock o.dcY)
  (fmul amp yn, { o with integ := integ, dcX := integ, dcY := yn })

/-- GEN (42_oscillator.md R362): the sample and the slot's generator state after it. -/
def generate (R : Regs) (amp dt : F32) (o : Osc) : F32 × Osc :=
  match o.wave with
  | .sine => (fmul amp (sinT o.phase), o)
  | .pulseRaw => (fmul amp (rawSquare o.phase o.duty), o)
  | .sawRaw => (fmul amp (rawSaw o.phase), o)
  | .triangleRaw => (fmul amp (rawTriangle o.phase), o)
  | .pulsePoly => (fmul amp (polySquare dt o.phase o.duty), o)
  | .sawPoly => (fmul amp (fsub (rawSaw o.phase) (polyBlep dt o.phase)), o)
  | .trianglePoly => trianglePoly R amp dt o

/-! ## Modulation -/

/-- The LFO phase after one advance (42_oscillator.md R370). -/
def lfoAdvance (R : Regs) (l : F32) : F32 :=
  let l := fadd l (fdiv R.vibRate (srF R))
  if fle f1 l then fsub l f1 else l

/-- The instantaneous frequency without vibrato (42_oscillator.md R380). -/
def carrier (base : F32) (o : Osc) : F32 := fmul (fmul base o.oct) o.detune

/-- Whether the vibrato gate is open (42_oscillator.md R371). -/
def vibratoOpen (R : Regs) (o : Osc) : Bool := flt R.vibOnset o.elapsed

/-- The frequency with vibrato and the LFO phase after this sample (42_oscillator.md R370, R371). -/
def vibrato (R : Regs) (f : F32) (o : Osc) : F32 × F32 :=
  if vibratoOpen R o then
    let l := lfoAdvance R o.lfoPhase
    (fadd f (fmul R.vibDepth (sinT l)), l)
  else (f, o.lfoPhase)

/-- The phase increment (42_oscillator.md R382). -/
def phaseIncrement (R : Regs) (f : F32) : F32 := fclamp (fdiv f (srF R)) f0 fHalf

/-- TREM (42_oscillator.md R375). -/
def tremolo (R : Regs) (elapsed : F32) : F32 :=
  fadd f1 (fmul R.tremDepth (sinT (ffrac (fmul R.tremRate elapsed))))

/-- The phase after an advance by `dt` (42_oscillator.md R387).  The rounded sum can be 1.5 and the new phase 0.5, just at
the ends that R387 derives as excluded; the operation is followed (notes 20). -/
def phaseAdvance (p dt : F32) : F32 :=
  let q := fadd p dt
  if fle f1 q then fsub q f1 else q

/-! ## Envelope -/

/-- The length of a stage in samples, at least 1.0 (43_envelope.md R420). -/
def stageSamples (R : Regs) (seconds : F32) : F32 := fmax (fmul seconds (srF R)) f1

/-- ENV_STEP (43_envelope.md R426) on an envelope state and value.  Where the rounded operation leaves a stage that R428 (f)
derives to stall, or stalls a Release that R428 (d) derives to end, the operation is followed (notes 21). -/
def envStep (R : Regs) (st : EnvState) (x : F32) : EnvState × F32 :=
  match st with
  | .attack =>
    let x := fadd x (fdiv f1 (stageSamples R R.attackS))
    if fle f1 x then (.decay, f1) else (.attack, x)
  | .decay =>
    let x := fsub x (fdiv (fsub f1 R.sustain) (stageSamples R R.decayS))
    if fle x R.sustain then (.sustain, R.sustain) else (.decay, x)
  | .sustain => (.sustain, x)
  | .release =>
    let x := fsub x (fdiv x (stageSamples R R.releaseS))
    if fle x R.envFloor then (.off, f0) else (.release, x)
  | .off => (.off, f0)

/-! ## Filter and soft clip -/

/-- LERP_DELTA (44_filter_mix.md R460). -/
def lerpDelta (target current alpha : F32) : F32 := fmul (fsub target current) alpha

/-- SHAPE (44_filter_mix.md R463): the sample and the slot's filter state after it. -/
def shape (R : Regs) (o : Osc) (x : F32) : F32 × Osc :=
  if R.filterEn then
    let fast := fadd o.fFast (lerpDelta x o.fFast R.filtAFast)
    let slow := fadd o.fSlow (lerpDelta x o.fSlow R.filtASlow)
    (tanh (fsub fast slow), { o with fFast := fast, fSlow := slow })
  else (tanh x, o)

/-! ## The advance -/

/-- OSC_STEP (42_oscillator.md R389) for a slot of a voice with base frequency `base`.  `elapsed` takes the rounded sum of
R388, which can grow once more at a tie (notes 22). -/
def oscStep (R : Regs) (base : F32) (o : Osc) : F32 × Osc :=
  let (f, lfo) := vibrato R (carrier base o) o
  let dt := phaseIncrement R f
  let amp := fmul o.vol R.oscGain
  let (raw, o1) := generate R amp dt o
  let (st, e) := envStep R o.envState o.envValue
  let m := tremolo R o.elapsed
  let (y, o2) := shape R o1 (fmul (fmul raw e) m)
  (y, { o2 with
        lfoPhase := lfo
        envState := st
        envValue := e
        phase := phaseAdvance o.phase dt
        elapsed := fadd o.elapsed (invSr R) })

end Sys2Proof.Machine
end

