-- ==== Sys2Proof/Machine/Mix.lean ====
section
/-!
DEFINITION. The mix of one frame (44_filter_mix.md R470-R477), the delay line, the output stage and the visualization
ring (45_delay_output.md R500-R522), and the frame step (R530, R531).
-/

namespace Sys2Proof.Machine

/-! ## Layer and voice summation -/

/-- The layer sum over the next `n` slots, each sample divided by `fcount` (44_filter_mix.md R472): the sum and the
slots after it.  The slots beyond the `n` are not advanced. -/
def layerSum (R : Regs) (base fcount : F32) : Nat → List Osc → F32 → F32 × List Osc
  | 0, os, acc => (acc, os)
  | _ + 1, [], acc => (acc, [])
  | n + 1, o :: os, acc =>
    let (y, o') := oscStep R base o
    let (acc', os') := layerSum R base fcount n os (fadd acc (fdiv y fcount))
    (acc', o' :: os')

/-- A voice's contribution from its layer sum (44_filter_mix.md R473). -/
def compress (P : Params) (R : Regs) (amplitude layer : F32) : F32 :=
  fdiv (fmul (tanh (fmul amplitude layer)) R.voiceGain) (fofNat P.voiceMax)

/-- One frame of a sounding voice: its contribution and the voice after it. -/
def voiceStep (P : Params) (R : Regs) (v : Voice) : F32 × Voice :=
  let (layer, os) := layerSum R v.baseFreq (fofNat v.count) v.count v.oscs f0
  (compress P R v.amplitude layer, { v with oscs := os })

/-- PAN_L (44_filter_mix.md R475). -/
def panL (R : Regs) : F32 := sinT (fadd R.pan fQuarter)

/-- PAN_R (44_filter_mix.md R475). -/
def panR (R : Regs) : F32 := sinT R.pan

/-- The channel sums after a voice's contribution `c` (44_filter_mix.md R474, R475). -/
def mixIn (R : Regs) (c : F32) (m : F32 × F32) : F32 × F32 :=
  if R.channels = 1 then (fadd m.1 c, m.2)
  else (fadd m.1 (fmul c (panL R)), fadd m.2 (fmul c (panR R)))

/-- The channel sums and the voices after one frame; a voice that does not sound is skipped whole (44_filter_mix.md
R470, R471, R477). -/
def mixVoices (P : Params) (R : Regs) : List Voice → F32 × F32 → (F32 × F32) × List Voice
  | [], m => (m, [])
  | v :: vs, m =>
    if v.sounding then
      let (c, v') := voiceStep P R v
      let (m', vs') := mixVoices P R vs (mixIn R c m)
      (m', v' :: vs')
    else
      let (m', vs') := mixVoices P R vs m
      (m', v :: vs')

/-- MIX (44_filter_mix.md R477): x_0, x_1 and the state with its voices advanced. -/
def mix (s : State) : F32 × F32 × State :=
  let (m, vs) := mixVoices s.params s.active s.voices (f0, f0)
  (fmul m.1 s.active.masterVolume, fmul m.2 s.active.masterVolume, withVoices vs s)

/-! ## Delay line and output stage -/

/-- The value DELAY_STEP outputs and writes back, for dry value `x` and delayed value `d` (45_delay_output.md
R501). -/
def delayValue (R : Regs) (x d : F32) : F32 :=
  let w := fadd (fmul (fsub f1 R.delayMix) x) (fmul R.delayMix (fmul R.delayFeedback d))
  tanh (fmul R.delayGain w)

/-- DELAY_STEP (45_delay_output.md R501): the word at `rd` is read before the word at `wr` is written. -/
def delayStep (x : F32) (s : State) : F32 × State :=
  let y := delayValue s.active x (memRead s.mem .dly s.delayRd)
  (y, { storeWord .dly s.delayWr y s with
        delayRd := (s.delayRd + 1) % s.params.delayCap
        delayWr := (s.delayWr + 1) % s.params.delayCap })

/-- QUANT(y, b) (45_delay_output.md R510). -/
def quant (y : F32) (b : Nat) : F32 := fdiv (froundHa (fmul y (fofNat (2 ^ b)))) (fofNat (2 ^ b))

/-- The quantizer, bypassed at 0 bits (45_delay_output.md R511). -/
def quantStage (R : Regs) (y : F32) : F32 := if 0 < R.quantBits.toNat then quant y R.quantBits.toNat else y

/-- OUTPUT (45_delay_output.md R511). -/
def output (x : F32) (s : State) : F32 × State :=
  if s.active.delayActive then
    let (y, s') := delayStep x s
    (quantStage s.active y, s')
  else (quantStage s.active (tanh x), s)

/-- The visualization ring takes the word `y` (45_delay_output.md R522). -/
def visStep (y : F32) (s : State) : State :=
  { storeWord .vis s.visWr y s with visWr := (s.visWr + 1) % s.params.visCap }

/-- One channel-sample: OUTPUT, emit, and channel 0's word into VIS (45_delay_output.md R530). -/
def channelSample (ch : Nat) (x : F32) (s : State) : State :=
  let (y, s) := output x s
  let s := emit y s
  if ch = 0 then visStep y s else s

/-- The channel-samples `ch`, `ch + 1`, ... of a frame, `n` of them, in channel order (45_delay_output.md R530). -/
def channelSamples : (n ch : Nat) → (x0 x1 : F32) → State → State
  | 0, _, _, _, s => s
  | n + 1, ch, x0, x1, s => channelSamples n (ch + 1) x0 x1 (channelSample ch (if ch = 0 then x0 else x1) s)

/-- RENDER_DONE (45_delay_output.md R531). -/
def renderDone (s : State) : State :=
  if s.stopPending then { s with run := false, stopPending := false } else s

/-- The counters after a frame (45_delay_output.md R530). -/
def countFrame (s : State) : State :=
  { s with frameCount := s.frameCount + 1, frameIdx := s.frameIdx + 1, framesLeft := s.framesLeft - 1 }

/-- FRAME_STEP (45_delay_output.md R530). -/
def frameStep (s : State) : State :=
  let (x0, x1, s) := mix s
  let s := countFrame (channelSamples s.active.channels.toNat 0 x0 x1 s)
  if s.framesLeft = 0 then renderDone s else s

end Sys2Proof.Machine
end

