-- ==== Sys2Proof/Machine/Step.lean ====
section
/-!
DEFINITION. One step of the block: what its inputs do next (the model's fetch), else the engine's step, and the
placing of an instruction where the next step runs it.
-/

namespace Sys2Proof.Machine

/-- The engine's step: a frame while BUSY = 1, nothing otherwise (45_delay_output.md R530, R531,
70_reset_and_hazards.md R720 (c)). -/
def engineStep (s : State) : State := if s.busy then frameStep s else s

/-- One step (notes 1).  A transaction at the head of the host's inputs is decoded and executed; an idle host lets the
engine take its step.  Every interleaving of transactions and frames (20_memory.md R162) is one list of inputs. -/
def step (s : State) : Host.Outcome State Fault Refusal :=
  match s.host with
  | .txn T :: rest => exec (decodeBus s.params T) (withHost rest s)
  | .hardReset :: rest => .next (resetBlock (withHost rest s))
  | .idle :: rest => .next (engineStep (withHost rest s))
  | [] => .next (engineStep s)

/-- The inputs that make the next step run a transaction. -/
def withTxn (T : BusWord) (s : State) : State := withHost (.txn T :: s.host) s

/-- The state in which the next step runs exactly the event `e`: events run only at the boundary of an accepted render
(41_voice_allocator.md R300), so the event is the whole queue, the block is running and idle, and the host's next
transaction is a render of one frame. -/
def withEvent (e : EventWord) (s : State) : State :=
  withTxn (busWord true 0x1C 1) (withQueue [e] { s with run := true, framesLeft := 0 })

/-- The instruction of a table word placed where the next step runs it; a word that is no code changes nothing. -/
def State.withFetchWord (s : State) (nbits w : Nat) : State :=
  match Code.ofTable nbits w with
  | .ok (.bus T) => withTxn T s
  | .ok (.event e) => withEvent e s
  | .error _ => s

end Sys2Proof.Machine
end

