-- ==== Sys2Proof/Safety.lean ====
section
/-!
DEFINITION. What the statements about the machine are said in: what it means that an instruction or a list of them
completes, the legal states of the block (the ranges that 10_state.md gives its state), the envelope and phase invariant
of 10_state.md R62, and the bounds of the values that a frame computes.
-/

namespace Sys2Proof.Machine

/-! ## Completing -/

/-- An outcome that is a next state with property `Q`: neither a fault nor a refusal. -/
def Answers (o : Host.Outcome State Fault Refusal) (Q : State → Prop) : Prop := ∃ t, o = .next t ∧ Q t

/-- The instructions of a list executed one after another, stopping at the first that does not complete. -/
def execAll : List Instr → State → Host.Outcome State Fault Refusal
  | [], s => .next s
  | i :: is, s =>
    match exec i s with
    | .next t => execAll is t
    | .fault f => .fault f
    | .refused r => .refused r

/-! ## Ranges -/

/-- `lo <= x <= hi` for words that are numbers without a sign bit: their order is that of their bits, and −0.0 is not
among them (10_state.md R104). -/
abbrev InRange (lo hi x : F32) : Prop := lo.toNat ≤ x.toNat ∧ x.toNat ≤ hi.toNat

/-- `0 <= x < 1` (10_state.md R62). -/
abbrev IsPhase (x : F32) : Prop := fle f0 x = true ∧ flt x f1 = true

/-- `0 <= x <= 1` (10_state.md R62). -/
abbrev IsLevel (x : F32) : Prop := fle f0 x = true ∧ fle x f1 = true

/-- `-1 <= x <= 1` (45_delay_output.md R511). -/
abbrev IsSample (x : F32) : Prop := fle (fneg f1) x = true ∧ fle x f1 = true

/-- A legal preset (10_state.md R107). -/
structure PresetLegal (P : Params) (Q : Preset) : Prop where
  count : 1 ≤ Q.count.toNat ∧ Q.count.toNat ≤ P.oscMax
  slots : Q.slots.length = P.oscMax
  fields : ∀ W ∈ Q.slots, ∀ f, InRange (pfieldLo f) (pfieldHi f) (W.get f)

/-- A legal copy of the configuration: every register but SAMPLE_RATE and CHANNELS, which are stored as written, is in
its range (10_state.md R102-R107). -/
structure RegsLegal (P : Params) (R : Regs) : Prop where
  floats : ∀ r, InRange (fregLo r) (fregHi r) (R.getF r)
  delayLen : 1 ≤ R.delayLen.toNat ∧ R.delayLen.toNat ≤ P.delayCap
  quantBits : R.quantBits.toNat ≤ 24
  thresholds : 0 < R.tLo.toNat ∧ R.tLo.toNat < R.tHi.toNat ∧ R.tHi.toNat < 127
  presets : R.presets.length = P.numPresets
  preset : ∀ Q ∈ R.presets, PresetLegal P Q

/-- The SAMPLE_RATE and CHANNELS that a START admits (40_host_commands.md R256). -/
structure StartLegal (P : Params) (R : Regs) : Prop where
  rate : P.srMin ≤ R.sampleRate.toNat ∧ R.sampleRate.toNat ≤ P.srMax
  channels : R.channels = 1 ∨ R.channels = 2

/-- A legal voice (10_state.md R52-R55, R60).  The amplitude is a value of the velocity curve, whose clamp registers lie
in [0, 16] (R53, R102). -/
structure VoiceLegal (P : Params) (v : Voice) : Prop where
  oscs : v.oscs.length = P.oscMax
  amplitude : fle f0 v.amplitude = true ∧ fle v.amplitude 0x41800000 = true
  count : 1 ≤ v.count ∧ v.count ≤ P.oscMax
  preset : v.preset < P.numPresets
  baseFreq : v.baseFreq = match v.key with
    | some k => noteFreq k
    | none => f0
  inactive : v.active = false → v.envState = .release ∨ v.envState = .off
  specs : ∀ o ∈ v.oscs, InRange (pfieldLo .oct) (pfieldHi .oct) o.oct ∧ InRange (pfieldLo .duty) (pfieldHi .duty) o.duty ∧
    InRange (pfieldLo .vol) (pfieldHi .vol) o.vol ∧ InRange (pfieldLo .detune) (pfieldHi .detune) o.detune

/-- The codes that LAST_ERR can hold (60_exceptions.md R601). -/
def lastErrCodes : List (BitVec 8) := [0x00, 0x01, 0x02, 0x10, 0x11, 0x12, 0x20]

/-- The legal states of the block: every register, cursor, selection, counter of progress, flag and voice field in the
range that 10_state.md gives it.  The phases and envelopes of the slots are in `Tuned`, the other values that a frame
computes in `Bounded`. -/
structure Legal (s : State) : Prop where
  params : s.params.legal
  voiceCount : s.voices.length = s.params.voiceMax
  voices : ∀ v ∈ s.voices, VoiceLegal s.params v
  layerSel : s.layerSel < s.params.numPresets
  queue : s.queue.length ≤ s.params.cmdqDepth
  mem : s.mem.wf = true
  cursors : s.delayRd < s.params.delayCap ∧ s.delayWr < s.params.delayCap ∧ s.visWr < s.params.visCap
  pend : RegsLegal s.params s.pend
  active : RegsLegal s.params s.active
  run : s.run = true → StartLegal s.params s.pend
  busy : s.busy = true → s.run = true ∧ StartLegal s.params s.active
  stopPending : s.stopPending = true → s.busy = true
  progress : s.frameIdx + s.framesLeft ≤ s.params.nmax
  lastErr : s.lastErr ∈ lastErrCodes

/-! ## Envelopes and phases -/

/-- The invariant of 10_state.md R62 on one voice: every slot `o < count` has its phases in [0, 1) and its envelope
value in [0, 1], an Off envelope has the value +0.0, and the slot has the envelope state and value of slot 0. -/
def VoiceTuned (v : Voice) : Prop :=
  ∀ o, o < v.count →
    IsPhase (v.osc o).phase ∧ IsPhase (v.osc o).lfoPhase ∧ IsLevel (v.osc o).envValue ∧
    ((v.osc o).envState = .off → (v.osc o).envValue = f0) ∧
    (v.osc o).envState = (v.osc 0).envState ∧ (v.osc o).envValue = (v.osc 0).envValue

/-- The invariant of 10_state.md R62 on every voice. -/
def Tuned (s : State) : Prop := ∀ v ∈ s.voices, VoiceTuned v

/-! ## Values that a frame computes -/

/-- `|x| <= b`. -/
abbrev Within (b x : F32) : Prop := fle (fabs x) b = true

/-- The bounds of a slot's accumulators: `elapsed` stops growing at 2^12 s at the latest (42_oscillator.md R388), `integ`
and `dc_x` are at most 6·2^24 and `dc_y` is below 2^53 (R390), and a filter accumulator is at most 2^62, the bound of the
samples it sees (R390, 44_filter_mix.md R490). -/
structure OscBounded (o : Osc) : Prop where
  elapsed : fle f0 o.elapsed = true ∧ fle o.elapsed 0x45800000 = true
  integ : Within 0x4CC00000 o.integ
  dcX : Within 0x4CC00000 o.dcX
  dcY : flt (fabs o.dcY) 0x5A000000 = true
  fFast : Within 0x5E800000 o.fFast
  fSlow : Within 0x5E800000 o.fSlow

/-- Every slot's accumulators are within their bounds, and every word of the delay RAM and of the visualization ring is
in [−1, 1] (45_delay_output.md R511). -/
structure Bounded (s : State) : Prop where
  oscs : ∀ v ∈ s.voices, ∀ o ∈ v.oscs, OscBounded o
  dly : ∀ i, i < s.params.delayCap → IsSample (memRead s.mem .dly i)
  vis : ∀ i, i < s.params.visCap → IsSample (memRead s.mem .vis i)

/-- At most one active voice holds any given key (41_voice_allocator.md R307). -/
def OneVoicePerKey (s : State) : Prop :=
  ∀ i j, i < j → j < s.voices.length →
    ¬ ((s.voice i).active = true ∧ (s.voice j).active = true ∧ (s.voice i).key = (s.voice j).key)

/-- No voice sounds, and the delay RAM holds only +0.0: the block as it is after reset while no event has run
(70_reset_and_hazards.md R703). -/
def Quiet (s : State) : Prop :=
  (∀ v ∈ s.voices, v.sounding = false) ∧ ∀ i, i < s.params.delayCap → memRead s.mem .dly i = f0

/-! ## The delay line over several samples -/

/-- The outputs of consecutive DELAY_STEPs (45_delay_output.md R501) on these dry values, and the state after them. -/
def delaySteps : List F32 → State → List F32 × State
  | [], s => ([], s)
  | x :: xs, s =>
    let (ys, t) := delaySteps xs (delayStep x s).2
    ((delayStep x s).1 :: ys, t)

end Sys2Proof.Machine
end

