-- ==== Sys2Proof/Certificates/Slice0/Obligations.lean ====
section
/-!
DEFINITION. The statements for the provers.  Each docstring names the rules of spec/ its statement formalises.
-/

open Sys2Proof Sys2Proof.Machine

/-! ## Encoding and decoding -/

/-- Words written out from the encodings of 30_encoding.md R200-R210 decode to their instructions (a few of them, the
reference instance). -/
def Obligations.SampleWordsDecode : Prop :=
  decode Params.reference (.bus 0x10001000000001) = .ctrlStart 1 ∧
  decode Params.reference (.bus 0x10001C00000080) = .render 0x80 ∧
  decode Params.reference (.bus 0x10010C41F00000) = .wrF32MasterVolume 0x41F00000 ∧
  decode Params.reference (.bus 0x1009AC3F800000) = .wrPresetDetune 1 2 0x3F800000 ∧
  decode Params.reference (.bus 0x00001400000000) = .rd 0x14 ∧
  decode Params.reference (.bus 0x00001500000000) = .busMisaligned false 0x15 0 ∧
  decode Params.reference (.bus 0x1000000000ABCD) = .wrIgnored 0 0xABCD ∧
  decode Params.reference (.event 0x903C64) = .noteOn 0 60 100 ∧
  decode Params.reference (.event 0x8A3C40) = .noteOff 10 60 64 ∧
  decode Params.reference (.event 0xB01405) = .ccWave 0 5 ∧
  decode Params.reference (.event 0xE04000) = .evReserved 0xE04000

/-- Decoding the word of a well-formed instruction gives the instruction back, for every instance
(30_encoding.md R200, R206, R210). -/
def Obligations.DecodeEncode : Prop :=
  ∀ (P : Params) (i : Instr), P.legal → i.wellFormed P = true → decode P (encode P i) = i

/-- Every word is the word of one well-formed instruction: encoding what a word decodes to gives the word back, but for
the data of a read, which is ignored (30_encoding.md R204, R206). -/
def Obligations.EncodeDecode : Prop :=
  ∀ (P : Params) (c : Code), P.legal →
    (decode P c).wellFormed P = true ∧
    encode P (decode P c) = match c with
      | .bus T => .bus (if busRw T then T else busWord false (busAddr T) 0)
      | .event e => .event e

/-- DECODE of an event word, in its fixed order (30_encoding.md R204). -/
def Obligations.EventDecoding : Prop :=
  ∀ (P : Params) (e : EventWord),
    let t := e.extractLsb' 20 4
    let ch := e.extractLsb' 16 4
    let k := e.extractLsb' 8 7
    let d := e.extractLsb' 0 7
    let known := t = 0x8 ∨ t = 0x9 ∨ t = 0xB
    let bad := e.getLsbD 15 = true ∨ e.getLsbD 7 = true
    (¬ known → decode P (.event e) = .evReserved e) ∧
    (known → bad → decode P (.event e) = .evBaddata e) ∧
    (t = 0x8 → ¬ bad → decode P (.event e) = .noteOff ch k d) ∧
    (t = 0x9 → ¬ bad → decode P (.event e) = .noteOn ch k d) ∧
    (t = 0xB → ¬ bad → k = P.ccWaveNum → decode P (.event e) = .ccWave ch d) ∧
    (t = 0xB → ¬ bad → k ≠ P.ccWaveNum → k = P.ccLayerNum → decode P (.event e) = .ccLayer ch d) ∧
    (t = 0xB → ¬ bad → k ≠ P.ccWaveNum → k ≠ P.ccLayerNum → decode P (.event e) = .ccOther ch k d)

/-- The indexed windows of the address map (20_memory.md R152, 10_state.md R107, R120, R121): each word of each window
lies at the address the map gives it, for every instance; and an aligned address that the map does not list, a window
index at or above its parameter among them, is unmapped (20_memory.md R153). -/
def Obligations.AddressMapWindows : Prop :=
  ∀ (P : Params), P.legal →
    (∀ p, p < P.numPresets → locate P (BitVec.ofNat 20 (0x800 + 0x100 * p)) = .presetCount (BitVec.ofNat 3 p)) ∧
    (∀ p o f, p < P.numPresets → o < P.oscMax → f < 4 →
      locate P (BitVec.ofNat 20 (0x880 + 0x100 * p + 0x10 * o + 4 * f)) =
        .presetField (BitVec.ofNat 3 p) (BitVec.ofNat 3 o) (PField.ofSelect (BitVec.ofNat 2 f))) ∧
    (∀ v j, v < P.voiceMax → j < 8 → locate P (BitVec.ofNat 20 (0x1000 + 0x20 * v + 4 * j)) = .voice v j) ∧
    (∀ v o j, v < P.voiceMax → o < P.oscMax → j < 16 →
      locate P (BitVec.ofNat 20 (0x4000 + 0x200 * v + 0x40 * o + 4 * j)) = .osc v o j) ∧
    (∀ i, i < P.visCap → locate P (BitVec.ofNat 20 (0x8000 + 4 * i)) = .vis i) ∧
    (∀ i, i < P.delayCap → locate P (BitVec.ofNat 20 (0x40000 + 4 * i)) = .dly i) ∧
    (∀ p j, P.numPresets ≤ p → p < 8 → j < 64 → locate P (BitVec.ofNat 20 (0x800 + 0x100 * p + 4 * j)) = .unmapped) ∧
    (∀ p j, p < 8 → 1 ≤ j → j < 32 → locate P (BitVec.ofNat 20 (0x800 + 0x100 * p + 4 * j)) = .unmapped) ∧
    (∀ p o f, p < 8 → P.oscMax ≤ o → o < 8 → f < 4 →
      locate P (BitVec.ofNat 20 (0x880 + 0x100 * p + 0x10 * o + 4 * f)) = .unmapped) ∧
    (∀ v j, P.voiceMax ≤ v → v < 0x180 → j < 8 → locate P (BitVec.ofNat 20 (0x1000 + 0x20 * v + 4 * j)) = .unmapped) ∧
    (∀ v o j, P.voiceMax ≤ v ∨ P.oscMax ≤ o → v < 32 → o < 8 → j < 16 →
      locate P (BitVec.ofNat 20 (0x4000 + 0x200 * v + 0x40 * o + 4 * j)) = .unmapped) ∧
    (∀ i, P.visCap ≤ i → i < 0xE000 → locate P (BitVec.ofNat 20 (0x8000 + 4 * i)) = .unmapped) ∧
    (∀ i, P.delayCap ≤ i → i < 0x30000 → locate P (BitVec.ofNat 20 (0x40000 + 4 * i)) = .unmapped) ∧
    ∀ n, n % 4 = 0 → (0x40 ≤ n ∧ n < 0x100) ∨ (0x180 ≤ n ∧ n < 0x800) → locate P (BitVec.ofNat 20 n) = .unmapped

/-! ## The step -/

/-- A step whose host input is a transaction runs the instruction that the transaction decodes to, and consumes the
input (notes 1; 20_memory.md R160). -/
def Obligations.StepRunsTransaction : Prop :=
  ∀ (s : State) (T : BusWord) (rest : List HostInput) (i : Instr),
    s.host = .txn T :: rest → decode s.params (.bus T) = i → step s = exec i (withHost rest s)

/-- A step without a transaction is one frame while BUSY = 1 and nothing otherwise (70_reset_and_hazards.md R720 (c),
45_delay_output.md R530; the inputs are the model's, notes 1). -/
def Obligations.StepRunsEngine : Prop :=
  (∀ (s : State), engineStep s = if 0 < s.framesLeft then frameStep s else s) ∧
  ∀ (s : State), (s.host = [] ∨ ∃ rest, s.host = .idle :: rest) →
    step s = .next (if 0 < s.framesLeft then frameStep (withHost s.host.tail s) else withHost s.host.tail s)

/-- Every instruction and every step completes: there is no trap, and no error is fatal (60_exceptions.md R604,
R605). -/
def Obligations.NothingStops : Prop :=
  (∀ (i : Instr) (s : State), ∃ t, exec i s = .next t) ∧ ∀ (s : State), ∃ t, step s = .next t

/-- The boundary latches, then executes every queued event once, in the order they were pushed, each as the
instruction it decodes to; the queue is empty after it (41_voice_allocator.md R300). -/
def Obligations.BoundaryRunsEvents : Prop :=
  ∀ (s : State),
    execAll (s.queue.map fun e => decode s.params (.event e)) (withQueue [] (latch s)) = .next (boundary s) ∧
    (boundary s).queue = []

/-! ## Reset -/

/-- The reset state of every instance, field by field, with the values of the reset table (70_reset_and_hazards.md
R701). -/
def Obligations.ResetTable : Prop :=
  ∀ (P : Params), P.legal →
    let s := State.resetOf P
    (s.voices.length = P.voiceMax ∧ ∀ v ∈ s.voices,
      v.active = false ∧ v.key = none ∧ v.amplitude = 0 ∧ v.baseFreq = 0 ∧ v.preset = 0 ∧ v.count = 1 ∧
      v.oscs.length = P.oscMax ∧ ∀ o ∈ v.oscs,
        o.wave.code = 0 ∧ o.oct = 0x3F800000 ∧ o.duty = 0x3F000000 ∧ o.vol = 0x3F800000 ∧ o.detune = 0x3F800000 ∧
        o.phase = 0 ∧ o.elapsed = 0 ∧ o.lfoPhase = 0 ∧ o.integ = 0 ∧ o.dcX = 0 ∧ o.dcY = 0 ∧ o.fFast = 0 ∧
        o.fSlow = 0 ∧ o.envState.code = 4 ∧ o.envValue = 0) ∧
    s.waveSel.code = 0 ∧ s.layerSel = 0 ∧ s.queue = [] ∧
    (∀ i, memRead s.mem .dly i = 0) ∧ (∀ i, memRead s.mem .vis i = 0) ∧
    s.delayRd = 0 ∧ s.delayWr = 0 ∧ s.dlenDirty = false ∧ s.visWr = 0 ∧
    s.active = s.pend ∧ s.pend.sampleRate = 48000 ∧ s.pend.channels = 1 ∧ s.pend.mode = 0 ∧
    s.pend.delayLen = BitVec.ofNat 32 P.delayCap ∧ s.pend.quantBits = 0 ∧ velTWord s.pend = 0x6020 ∧
    ([.masterVolume, .voiceGain, .oscGain, .delayGain, .delayFeedback, .delayMix, .vibRate, .vibDepth, .vibOnset,
      .tremRate, .tremDepth, .attackS, .decayS].map s.pend.getF =
     [0x3F800000, 0x3F800000, 0x3F800000, 0x3F800000, 0x3F000000, 0x3F000000, 0x40A00000, 0, 0x3F000000,
      0, 0, 0x3C800000, 0x3E000000]) ∧
    ([.sustain, .releaseS, .envFloor, .filtAFast, .filtASlow, .dcBlock, .pan, .velG0, .velG1, .velG2, .velG3,
      .velGmin, .velGmax].map s.pend.getF =
     [0x3F400000, 0x3E800000, 0x38800000, 0x3F800000, 0, 0x3F7EB852, 0x3E000000, 0x3E000000, 0x3F000000, 0x3FC00000,
      0x40100000, 0x3E000000, 0x40100000]) ∧
    (s.pend.presets.length = P.numPresets ∧ ∀ Q ∈ s.pend.presets, Q.count = 1 ∧ Q.slots.length = P.oscMax ∧
      ∀ W ∈ Q.slots, W.oct = 0x3F800000 ∧ W.duty = 0x3F000000 ∧ W.vol = 0x3F800000 ∧ W.detune = 0x3F800000) ∧
    locWord s .ctrl = 0 ∧ statusWord s = 0x40 ∧
    s.dropCount = 0 ∧ s.ignCount = 0 ∧ s.qovfCount = 0 ∧ s.frameCount = 0 ∧ s.framesLeft = 0 ∧ s.frameIdx = 0 ∧
    locWord s .id = 0x53475341

/-- A soft reset and the hardware reset input both leave the reset state, at once and from any state; the words already
emitted stay emitted (70_reset_and_hazards.md R700, 40_host_commands.md R258).  That the reset input is an entry of the
host inputs, and that reset leaves the fields `host`, `rdata` and `draws`, is the model's (notes 1, 4, 9, 13). -/
def Obligations.ResetResult : Prop :=
  (∀ (w : Word) (s : State), w.getLsbD 1 = true → decode s.params (.bus (busWord true 0x10 w)) = .ctrlSoftReset w) ∧
  (∀ (w : Word) (s : State), exec (.ctrlSoftReset w) s =
    .next { State.resetOf s.params with host := s.host, out := s.out, rdata := s.rdata, draws := s.draws }) ∧
  ∀ (s : State) (rest : List HostInput), s.host = .hardReset :: rest →
    step s = .next { State.resetOf s.params with host := rest, out := s.out, rdata := s.rdata, draws := s.draws }

/-! ## Reads -/

/-- RD (40_host_commands.md R251, 20_memory.md R158, R162): a read of engine-written state while BUSY = 1 returns a draw,
whatever the state holds; every other read returns the word the location holds; no read changes anything else.  `rdata`,
the word returned, and the counter of draws are the model's fields (notes 9, 5). -/
def Obligations.ReadResult : Prop :=
  ∀ (a : BusAddr) (w : Word) (s : State), aligned a = true →
    decode s.params (.bus (busWord false a w)) = .rd a ∧
    (engineWritten (locate s.params a) = true → s.busy = true →
      exec (.rd a) s = .next { s with rdata := Config.readDraw s.draws, draws := s.draws + 1 }) ∧
    ((engineWritten (locate s.params a) = false ∨ s.busy = false) →
      exec (.rd a) s = .next { s with rdata := locWord s (locate s.params a) })

/-- An unmapped aligned address reads as 0 and ignores writes, a write to a read-only register or window is ignored,
and a write-only register reads as 0 (20_memory.md R153).  `rdata`, the word a read returns, is the model's field
(notes 9). -/
def Obligations.UnmappedAndReadOnly : Prop :=
  ∀ (a : BusAddr) (w : Word) (s : State), aligned a = true →
    let l := locate s.params a
    (l = .unmapped → exec (.rd a) s = .next { s with rdata := 0 }) ∧
    (l ∈ [.id, .cfg0, .cfg1, .cfg2, .frameCount, .delayRd, .delayWr, .visWr, .sel, .unmapped] ∨
        (∃ v j, l = .voice v j) ∨ (∃ v o j, l = .osc v o j) ∨ (∃ i, l = .vis i) ∨ (∃ i, l = .dly i) →
      decode s.params (.bus (busWord true a w)) = .wrIgnored a w ∧ exec (.wrIgnored a w) s = .next s) ∧
    (l = .event ∨ l = .renderReq → exec (.rd a) s = .next { s with rdata := 0 })

/-- The fields of STATUS (10_state.md R113), of VSTAT (R120), of OSTAT (R121) and of MODE (R105), the four classes of a
voice with their codes (R55), and the codes of the envelope states (R56) and of the waves (R57).  Voices, slots and presets
are numbered from 0 (R52, R60, R107), and BUSY is `frames_left > 0` (R131). -/
def Obligations.StatusLayouts : Prop :=
  (∀ (s : State), s.queue.length ≤ 255 →
    (statusWord s).getLsbD 0 = s.run ∧ (statusWord s).getLsbD 1 = decide (0 < s.framesLeft) ∧
    (statusWord s).getLsbD 2 = s.cfgErr ∧ (statusWord s).getLsbD 3 = s.busErr ∧ (statusWord s).getLsbD 4 = s.renderErr ∧
    (statusWord s).getLsbD 5 = decide (s.queue.length = s.params.cmdqDepth) ∧
    (statusWord s).getLsbD 6 = decide (s.queue.length = 0) ∧ (statusWord s).getLsbD 7 = s.stopPending ∧
    ((statusWord s).extractLsb' 8 8).toNat = s.queue.length ∧ (statusWord s).extractLsb' 16 8 = 0 ∧
    (statusWord s).extractLsb' 24 8 = s.lastErr) ∧
  (∀ (v : Voice), v.preset < 16 → v.count < 16 →
    (vstatWord v).getLsbD 0 = v.active ∧ ((vstatWord v).extractLsb' 1 3).toNat = v.envState.code ∧
    ((vstatWord v).extractLsb' 4 2).toNat = v.voiceClass.code ∧ (vstatWord v).extractLsb' 6 2 = 0 ∧
    (vstatWord v).extractLsb' 8 8 = (match v.key with | none => 0xFF | some k => k.setWidth 8) ∧
    ((vstatWord v).extractLsb' 16 4).toNat = v.preset ∧ ((vstatWord v).extractLsb' 20 4).toNat = v.count ∧
    (vstatWord v).extractLsb' 24 8 = 0) ∧
  (∀ (o : Osc), ((ostatWord o).extractLsb' 0 3).toNat = o.wave.code ∧ (ostatWord o).getLsbD 3 = false ∧
    ((ostatWord o).extractLsb' 4 3).toNat = o.envState.code ∧ (ostatWord o).extractLsb' 7 25 = 0) ∧
  (∀ (v : Voice),
    (v.active = true → v.voiceClass = .held) ∧
    (v.active = false → (v.osc 0).envState = .release → v.voiceClass = .releasing) ∧
    (v.active = false → (v.osc 0).envState ≠ .release → v.key = none → v.voiceClass = .idle) ∧
    (v.active = false → (v.osc 0).envState ≠ .release → v.key ≠ none → v.voiceClass = .silent) ∧
    v.envState = (v.osc 0).envState ∧ ∀ o (h : o < v.oscs.length), v.osc o = v.oscs[o]) ∧
  [VoiceClass.idle, .held, .releasing, .silent].map VoiceClass.code = [0, 1, 2, 3] ∧
  [EnvState.attack, .sustain, .decay, .release, .off].map EnvState.code = [0, 1, 2, 3, 4] ∧
  [WaveKind.sine, .pulseRaw, .sawRaw, .triangleRaw, .pulsePoly, .sawPoly, .trianglePoly].map WaveKind.code =
    [0, 1, 2, 3, 4, 5, 6] ∧
  (∀ (s : State), s.busy = decide (0 < s.framesLeft) ∧ ∀ v (h : v < s.voices.length), s.voice v = s.voices[v]) ∧
  (∀ (R : Regs), R.filterEn = R.mode.getLsbD 0 ∧ R.delayActive = R.mode.getLsbD 1 ∧ R.retrigNew = R.mode.getLsbD 2 ∧
    ∀ p (h : p < R.presets.length), R.preset p = R.presets[p]) ∧
  ∀ (Q : Preset) (o : Nat) (h : o < Q.slots.length), Q.slot o = Q.slots[o]

/-- A misaligned transaction sets BUS_ERR and LAST_ERR = 0x20 and changes nothing else; a misaligned read returns 0
(20_memory.md R154).  `rdata`, the word a read returns, is the model's field (notes 9). -/
def Obligations.MisalignedTransaction : Prop :=
  ∀ (rw : Bool) (a : BusAddr) (w : Word) (s : State), a.toNat % 4 ≠ 0 →
    decode s.params (.bus (busWord rw a w)) = .busMisaligned rw a (if rw then w else 0) ∧
    exec (.busMisaligned rw a (if rw then w else 0)) s =
      .next { s with busErr := true, lastErr := 0x20, rdata := if rw then s.rdata else 0 }

/-! ## Control -/

/-- CTRL_START (40_host_commands.md R256): while RUN = 1 it cancels a deferred STOP; else a pending rate outside
[SR_MIN, SR_MAX] raises 0x01, a channel count other than 1 and 2 raises 0x02, in that order, and RUN stays 0; else RUN
becomes 1.  Nothing else changes. -/
def Obligations.StartResult : Prop :=
  ∀ (w : Word) (s : State),
    let rateOk := s.params.srMin ≤ s.pend.sampleRate.toNat ∧ s.pend.sampleRate.toNat ≤ s.params.srMax
    let channelsOk := s.pend.channels = 1 ∨ s.pend.channels = 2
    (w.getLsbD 1 = false → w.getLsbD 0 = true → decode s.params (.bus (busWord true 0x10 w)) = .ctrlStart w) ∧
    (s.run = true → exec (.ctrlStart w) s = .next { s with stopPending := false }) ∧
    (s.run = false → ¬ rateOk → exec (.ctrlStart w) s = .next { s with cfgErr := true, lastErr := 0x01 }) ∧
    (s.run = false → rateOk → ¬ channelsOk →
      exec (.ctrlStart w) s = .next { s with cfgErr := true, lastErr := 0x02 }) ∧
    (s.run = false → rateOk → channelsOk → exec (.ctrlStart w) s = .next { s with run := true })

/-- CTRL_STOP (40_host_commands.md R257): nothing while RUN = 0; STOP_PENDING is set while BUSY = 1; else RUN becomes 0.
Nothing else changes. -/
def Obligations.StopResult : Prop :=
  ∀ (w : Word) (s : State),
    (w.getLsbD 1 = false → w.getLsbD 0 = false → decode s.params (.bus (busWord true 0x10 w)) = .ctrlStop w) ∧
    (s.run = false → exec (.ctrlStop w) s = .next s) ∧
    (s.run = true → s.busy = true → exec (.ctrlStop w) s = .next { s with stopPending := true }) ∧
    (s.run = true → s.busy = false → exec (.ctrlStop w) s = .next { s with run := false })

/-- STATUS_W1C clears the sticky flags whose bits are 1 and changes nothing else, LAST_ERR included
(40_host_commands.md R259). -/
def Obligations.ClearErrorsResult : Prop :=
  ∀ (w : Word) (s : State),
    decode s.params (.bus (busWord true 0x14 w)) = .statusW1c w ∧
    exec (.statusW1c w) s = .next { s with
      cfgErr := if w.getLsbD 2 then false else s.cfgErr
      busErr := if w.getLsbD 3 then false else s.busErr
      renderErr := if w.getLsbD 4 then false else s.renderErr }

/-- CNT_CLEAR (40_host_commands.md R254): a write of any word to DROP_COUNT, IGN_COUNT or QOVF_COUNT makes that counter 0;
while BUSY = 1 the clear of DROP_COUNT or of IGN_COUNT may race with an increment by the engine, and then the counter is 0
or 1.  Nothing else changes.  That the choice of 0 or 1 is the draw numbered `draws`, that every such clear takes one, and
that QOVF_COUNT, which only host writes increment, never races, is the model's (notes 15). -/
def Obligations.ClearCounterResult : Prop :=
  ∀ (w : Word) (s : State),
    let raced : Word := if Config.clearDraw s.draws then 1 else 0
    (decode s.params (.bus (busWord true 0x20 w)) = .cntClear .drop w ∧
      (s.busy = false → exec (.cntClear .drop w) s = .next { s with dropCount := 0 }) ∧
      (s.busy = true → exec (.cntClear .drop w) s = .next { s with dropCount := raced, draws := s.draws + 1 })) ∧
    (decode s.params (.bus (busWord true 0x24 w)) = .cntClear .ign w ∧
      (s.busy = false → exec (.cntClear .ign w) s = .next { s with ignCount := 0 }) ∧
      (s.busy = true → exec (.cntClear .ign w) s = .next { s with ignCount := raced, draws := s.draws + 1 })) ∧
    (decode s.params (.bus (busWord true 0x28 w)) = .cntClear .qovf w ∧
      exec (.cntClear .qovf w) s = .next { s with qovfCount := 0 })

/-- EV_PUSH appends the word's bits [23:0] to the queue, or counts an overflow when the queue is full; nothing else
changes (40_host_commands.md R260). -/
def Obligations.PushResult : Prop :=
  ∀ (w : Word) (s : State),
    decode s.params (.bus (busWord true 0x18 w)) = .evPush w ∧
    (s.queue.length < s.params.cmdqDepth →
      exec (.evPush w) s = .next { s with queue := s.queue ++ [w.extractLsb' 0 24] }) ∧
    (¬ s.queue.length < s.params.cmdqDepth → exec (.evPush w) s = .next { s with qovfCount := s.qovfCount + 1 })

/-- A refused RENDER sets RENDER_ERR and the code of the first check that fails, and changes nothing else
(40_host_commands.md R262, 60_exceptions.md R603). -/
def Obligations.RenderRefused : Prop :=
  ∀ (w : Word) (s : State),
    let n := (w.extractLsb' 0 16).toNat
    decode s.params (.bus (busWord true 0x1C w)) = .render w ∧
    (s.run = false → exec (.render w) s = .next { s with renderErr := true, lastErr := 0x10 }) ∧
    (s.run = true → s.busy = true → exec (.render w) s = .next { s with renderErr := true, lastErr := 0x11 }) ∧
    (s.run = true → s.busy = false → (n = 0 ∨ s.params.nmax < n) →
      exec (.render w) s = .next { s with renderErr := true, lastErr := 0x12 })

/-- An accepted RENDER latches the configuration, seats the read cursor if DELAY_LEN was written, drains the queue and
sets the render's progress; the events change only the voices, the selections, the two counters and the phase draws
(40_host_commands.md R262, 10_state.md R101, 41_voice_allocator.md R300). -/
def Obligations.RenderAccepted : Prop :=
  ∀ (w : Word) (s : State),
    let n := (w.extractLsb' 0 16).toNat
    s.run = true → s.busy = false → 0 < n → n ≤ s.params.nmax →
    ∃ t, exec (.render w) s = .next t ∧ t = { boundary s with framesLeft := n, frameIdx := 0 } ∧
      t = { s with
        active := s.pend
        delayRd :=
          if s.dlenDirty then
            (((s.delayWr : Int) - (s.pend.delayLen.toNat : Int)) % (s.params.delayCap : Int)).toNat
          else s.delayRd
        dlenDirty := false
        queue := []
        framesLeft := n
        frameIdx := 0
        voices := t.voices
        waveSel := t.waveSel
        layerSel := t.layerSel
        dropCount := t.dropCount
        ignCount := t.ignCount
        draws := t.draws }

/-! ## Configuration writes -/

/-- A write to a floating-point register (10_state.md R104, 40_host_commands.md R252): the pending register takes the
clamped value, or keeps its own for a NaN; every other register, the active copy and the rest of the state stay; a read
returns the register, which stays in its range. -/
def Obligations.WriteFloat : Prop :=
  ∀ (r : FReg) (w : Word) (s : State),
    decode s.params (.bus (busWord true (BitVec.ofNat 20 r.addr) w)) = r.write w ∧
    ∃ R, exec (r.write w) s = .next { s with pend := R } ∧
      R.getF r = (if w.extractLsb' 23 8 = 0xFF ∧ w.extractLsb' 0 23 ≠ 0 then s.pend.getF r
        else fclamp (if w = 0x80000000 then 0 else w) (fregLo r) (fregHi r)) ∧
      (∀ r', r' ≠ r → R.getF r' = s.pend.getF r') ∧ (∀ n, iregWord R n = iregWord s.pend n) ∧
      R.presets = s.pend.presets ∧ locWord { s with pend := R } (.flt r) = R.getF r ∧
      (InRange (fregLo r) (fregHi r) (s.pend.getF r) → InRange (fregLo r) (fregHi r) (R.getF r))

/-- The range of each floating-point register and preset field, as the tables of 10_state.md R102 and R107 give it by
address (or field select), and the field of the state that each names; and every value that a write stores there is finite
and in that range (R104), and is not −0.0. -/
def Obligations.StoredFloatInRange : Prop :=
  (∀ r : FReg, (r, r.addr, fregLo r, fregHi r) ∈
    ([(.masterVolume, 0x10C, 0, 0x41800000), (.voiceGain, 0x110, 0, 0x41800000), (.oscGain, 0x114, 0, 0x41800000),
      (.delayGain, 0x118, 0, 0x41800000), (.delayFeedback, 0x11C, 0, 0x3F800000), (.delayMix, 0x120, 0, 0x3F800000),
      (.vibRate, 0x128, 0, 0x447A0000), (.vibDepth, 0x12C, 0, 0x46BB8000), (.vibOnset, 0x130, 0, 0x4B800000),
      (.tremRate, 0x134, 0, 0x447A0000), (.tremDepth, 0x138, 0, 0x3F800000), (.attackS, 0x140, 0, 0x47800000),
      (.decayS, 0x144, 0, 0x47800000)] ++
     [(.sustain, 0x148, 0, 0x3F800000), (.releaseS, 0x14C, 0, 0x47800000), (.envFloor, 0x150, 0, 0x3F800000),
      (.filtAFast, 0x154, 0, 0x3F800000), (.filtASlow, 0x158, 0, 0x3F800000), (.dcBlock, 0x15C, 0, 0x3F7FFFFF),
      (.pan, 0x160, 0, 0x3E800000), (.velG0, 0x168, 0, 0x41800000), (.velG1, 0x16C, 0, 0x41800000),
      (.velG2, 0x170, 0, 0x41800000), (.velG3, 0x174, 0, 0x41800000), (.velGmin, 0x178, 0, 0x41800000),
      (.velGmax, 0x17C, 0, 0x41800000)] : List (FReg × Nat × F32 × F32))) ∧
  (∀ f : PField, (f, f.select, pfieldLo f, pfieldHi f) ∈
    ([(.oct, 0, 0x3D800000, 0x41800000), (.duty, 1, 0, 0x3F800000), (.vol, 2, 0, 0x41800000),
      (.detune, 3, 0x3F000000, 0x40000000)] : List (PField × Nat × F32 × F32))) ∧
  (∀ (R : Regs),
    [FReg.masterVolume, .voiceGain, .oscGain, .delayGain, .delayFeedback, .delayMix, .vibRate, .vibDepth, .vibOnset,
      .tremRate, .tremDepth, .attackS, .decayS, .sustain].map R.getF =
      [R.masterVolume, R.voiceGain, R.oscGain, R.delayGain, R.delayFeedback, R.delayMix, R.vibRate, R.vibDepth, R.vibOnset,
        R.tremRate, R.tremDepth, R.attackS, R.decayS, R.sustain] ∧
    [FReg.releaseS, .envFloor, .filtAFast, .filtASlow, .dcBlock, .pan, .velG0, .velG1, .velG2, .velG3, .velGmin,
      .velGmax].map R.getF =
      [R.releaseS, R.envFloor, R.filtAFast, R.filtASlow, R.dcBlock, R.pan, R.velG0, R.velG1, R.velG2, R.velG3, R.velGmin,
        R.velGmax]) ∧
  (∀ (W : WaveSpec), [PField.oct, .duty, .vol, .detune].map W.get = [W.oct, W.duty, W.vol, W.detune]) ∧
  (∀ (r : FReg) (old w : F32), InRange (fregLo r) (fregHi r) old →
    InRange (fregLo r) (fregHi r) (writtenF32 (fregLo r) (fregHi r) old w)) ∧
  ∀ (f : PField) (old w : F32), InRange (pfieldLo f) (pfieldHi f) old →
    InRange (pfieldLo f) (pfieldHi f) (writtenF32 (pfieldLo f) (pfieldHi f) old w)

/-- The integer configuration writes and WR_PRESET_COUNT (40_host_commands.md R253, 10_state.md R108): SAMPLE_RATE and
CHANNELS take the word while RUN = 0 and ignore it while RUN = 1; MODE takes bits [2:0]; DELAY_LEN is clamped and sets
`dlen_dirty`; QUANT_BITS takes at most 24; VEL_T changes only for 0 < T_LO < T_HI < 127; COUNT of an existing preset is
clamped to 1 .. OSC_MAX.  Nothing else changes.  The addresses are those of 10_state.md R103 and R107. -/
def Obligations.WriteInteger : Prop :=
  ∀ (w : Word) (s : State),
    (decode s.params (.bus (busWord true 0x100 w)) = .wrSampleRate w ∧
      decode s.params (.bus (busWord true 0x104 w)) = .wrChannels w ∧
      decode s.params (.bus (busWord true 0x108 w)) = .wrMode w ∧
      decode s.params (.bus (busWord true 0x124 w)) = .wrDelayLen w ∧
      decode s.params (.bus (busWord true 0x13C w)) = .wrQuantBits w ∧
      decode s.params (.bus (busWord true 0x164 w)) = .wrVelT w) ∧
    (∀ p : BitVec 3, p.toNat < s.params.numPresets →
      decode s.params (.bus (busWord true (BitVec.ofNat 20 (0x800 + 0x100 * p.toNat)) w)) = .wrPresetCount p w) ∧
    (exec (.wrSampleRate w) s = .next (if s.run then s else { s with pend := { s.pend with sampleRate := w } })) ∧
    (exec (.wrChannels w) s = .next (if s.run then s else { s with pend := { s.pend with channels := w } })) ∧
    (exec (.wrMode w) s = .next { s with pend := { s.pend with mode := w.extractLsb' 0 3 } }) ∧
    (exec (.wrDelayLen w) s = .next { s with
      dlenDirty := true
      pend := { s.pend with delayLen := BitVec.ofNat 32 (min (max w.toNat 1) s.params.delayCap) } }) ∧
    (exec (.wrQuantBits w) s = .next { s with pend := { s.pend with quantBits := BitVec.ofNat 32 (min w.toNat 24) } }) ∧
    (let lo := w.extractLsb' 0 7
     let hi := w.extractLsb' 8 7
     exec (.wrVelT w) s = .next
      (if 0 < lo.toNat ∧ lo.toNat < hi.toNat ∧ hi.toNat < 127 then { s with pend := { s.pend with tLo := lo, tHi := hi } }
       else s)) ∧
    ∀ p : BitVec 3, p.toNat < s.pend.presets.length →
      ∃ L, exec (.wrPresetCount p w) s = .next { s with pend := { s.pend with presets := L } } ∧
        L.length = s.pend.presets.length ∧
        L[p.toNat]? = some { s.pend.preset p.toNat with
          count := BitVec.ofNat 32 (min (max w.toNat 1) s.params.oscMax) } ∧
        ∀ q, q ≠ p.toNat → L[q]? = s.pend.presets[q]?

/-- A write to a field of a preset's slot (40_host_commands.md R252, 10_state.md R104, R107): that field takes the
clamped value, or keeps its own for a NaN; every other field, slot and preset stays. -/
def Obligations.WritePresetField : Prop :=
  ∀ (f : PField) (p o : BitVec 3) (w : Word) (s : State),
    (p.toNat < s.params.numPresets → o.toNat < s.params.oscMax →
      decode s.params (.bus (busWord true (BitVec.ofNat 20 (0x880 + 0x100 * p.toNat + 0x10 * o.toNat + 4 * f.select)) w)) =
        f.write p o w) ∧
    (p.toNat < s.pend.presets.length → o.toNat < (s.pend.preset p.toNat).slots.length →
    ∃ L, exec (f.write p o w) s = .next { s with pend := { s.pend with presets := L } } ∧
      (∀ q, q ≠ p.toNat → L[q]? = s.pend.presets[q]?) ∧
      ∃ S, L[p.toNat]? = some { s.pend.preset p.toNat with slots := S } ∧
        (∀ q, q ≠ o.toNat → S[q]? = (s.pend.preset p.toNat).slots[q]?) ∧
        ∃ W, S[o.toNat]? = some W ∧
          W.get f = (if w.extractLsb' 23 8 = 0xFF ∧ w.extractLsb' 0 23 ≠ 0
            then ((s.pend.preset p.toNat).slot o.toNat).get f
            else fclamp (if w = 0x80000000 then 0 else w) (pfieldLo f) (pfieldHi f)) ∧
          ∀ g, g ≠ f → W.get g = ((s.pend.preset p.toNat).slot o.toNat).get g)

/-- The active copy changes only at a latch, which is part of an accepted RENDER, and at reset (10_state.md R100). -/
def Obligations.ActiveCopyChanges : Prop :=
  ∀ (s t : State), step s = .next t → t.active ≠ s.active →
    (∃ T rest w, s.host = .txn T :: rest ∧ decode s.params (.bus T) = .render w ∧ s.run = true ∧ s.busy = false ∧
      0 < (w.extractLsb' 0 16).toNat ∧ (w.extractLsb' 0 16).toNat ≤ s.params.nmax ∧ t.active = s.pend) ∨
    (∃ T rest w, s.host = .txn T :: rest ∧ decode s.params (.bus T) = .ctrlSoftReset w ∧
      t.active = (State.resetOf s.params).active) ∨
    (∃ rest, s.host = .hardReset :: rest ∧ t.active = (State.resetOf s.params).active)

/-- What the host writes during a render does not reach its frames: a frame does the same whatever the pending
configuration, the queue and `dlen_dirty` hold, and leaves those three as they are (20_memory.md R165, R162). -/
def Obligations.FramesIgnoreHostWrites : Prop :=
  ∀ (s : State) (R : Regs) (q : List EventWord) (b : Bool),
    frameStep { s with pend := R, queue := q, dlenDirty := b } =
      { frameStep s with pend := R, queue := q, dlenDirty := b }

/-! ## Events -/

/-- A Note-On with no target changes no voice: its only effect is to count in DROP_COUNT; and a Note-Off for a key that
no active voice holds has no effect (41_voice_allocator.md R304). -/
def Obligations.NoteOnExhausted : Prop :=
  ∀ (ch : BitVec 4) (k vel : BitVec 7) (s : State),
    (s.active.retrigNew = true ∨ ∀ v ∈ s.voices, ¬ (v.active = true ∧ v.key = some k)) →
    (∀ v ∈ s.voices, ¬ (v.active = false ∧ v.envState = .off)) →
    exec (.noteOn ch k vel) s = .next { s with dropCount := s.dropCount + 1 } ∧
    ((∀ v ∈ s.voices, ¬ (v.active = true ∧ v.key = some k)) → ∀ rv,
      exec (.noteOff ch k rv) { s with dropCount := s.dropCount + 1 } = .next { s with dropCount := s.dropCount + 1 })

/-- Which voice a Note-On takes and what it makes of it (41_voice_allocator.md R301, R302, R303, R305): with RETRIG_NEW
= 0 the lowest active voice that holds the key, else the lowest free one; every other voice stays.  The phases are free
values; that the draw of slot o is the one numbered `draws + o`, and that OSC_MAX of them are taken, is the model's way to
name them (notes 4). -/
def Obligations.NoteOnInitializes : Prop :=
  ∀ (ch : BitVec 4) (k vel : BitVec 7) (s : State) (v : Nat), v < s.voices.length →
    let held := fun u => (s.voice u).active = true ∧ (s.voice u).key = some k
    let free := fun u => (s.voice u).active = false ∧ (s.voice u).envState = .off
    (s.active.retrigNew = false ∧ held v ∧ ∀ u, u < v → ¬ held u) ∨
      ((s.active.retrigNew = true ∨ ∀ u, u < s.voices.length → ¬ held u) ∧ free v ∧ ∀ u, u < v → ¬ free u) →
    ∃ V, exec (.noteOn ch k vel) s =
        .next { s with voices := s.voices.set v V, draws := s.draws + s.params.oscMax } ∧
      V.active = true ∧ V.key = some k ∧ V.amplitude = velCurve s.active vel ∧ V.baseFreq = noteFreq k ∧
      V.preset = s.layerSel ∧ V.count = (s.active.preset s.layerSel).count.toNat ∧ V.oscs.length = s.params.oscMax ∧
      ∀ o, o < s.params.oscMax → V.osc o =
        { wave := s.waveSel
          oct := ((s.active.preset s.layerSel).slot o).oct
          duty := ((s.active.preset s.layerSel).slot o).duty
          vol := ((s.active.preset s.layerSel).slot o).vol
          detune := ((s.active.preset s.layerSel).slot o).detune
          phase := drawPhase (s.draws + o)
          elapsed := 0, lfoPhase := 0, integ := 0, dcX := 0, dcY := 0, fFast := 0, fSlow := 0
          envState := .attack
          envValue := ((s.voice v).osc 0).envValue }

/-- NOTE_OFF releases every active voice that holds the key: its slots go to Release with their values kept, it becomes
inactive, and its key stays; every other voice, and everything else, stays (41_voice_allocator.md R310). -/
def Obligations.NoteOffReleases : Prop :=
  ∀ (ch : BitVec 4) (k rv : BitVec 7) (s : State),
    decode s.params (.event (eventWord 0x8 ch k rv)) = .noteOff ch k rv ∧
    ∃ L, exec (.noteOff ch k rv) s = .next { s with voices := L } ∧ L.length = s.voices.length ∧
      ∀ v (h : v < s.voices.length),
        (¬ (s.voices[v].active = true ∧ s.voices[v].key = some k) → L[v]? = some s.voices[v]) ∧
        (s.voices[v].active = true → s.voices[v].key = some k →
          ∃ O, L[v]? = some { s.voices[v] with active := false, oscs := O } ∧ O.length = s.voices[v].oscs.length ∧
            ∀ o (ho : o < s.voices[v].oscs.length), O[o]? = some { s.voices[v].oscs[o] with envState := .release })

/-- The control changes (41_voice_allocator.md R315, R316, R317): CC_WAVE selects the waveform of later notes, the
one that R57 lists at the code 0 to 6, CC_LAYER the preset of later notes for the values below NUM_PRESETS; other values,
and any other controller, have no effect and are not counted.  No voice changes (R318). -/
def Obligations.ControlChanges : Prop :=
  ∀ (ch : BitVec 4) (c d : BitVec 7) (s : State),
    decode s.params (.event (eventWord 0xB ch s.params.ccWaveNum d)) = .ccWave ch d ∧
    (s.params.ccLayerNum ≠ s.params.ccWaveNum →
      decode s.params (.event (eventWord 0xB ch s.params.ccLayerNum d)) = .ccLayer ch d) ∧
    (c ≠ s.params.ccWaveNum → c ≠ s.params.ccLayerNum →
      decode s.params (.event (eventWord 0xB ch c d)) = .ccOther ch c d) ∧
    (∀ w, [WaveKind.sine, .pulseRaw, .sawRaw, .triangleRaw, .pulsePoly, .sawPoly, .trianglePoly][d.toNat]? = some w →
      exec (.ccWave ch d) s = .next { s with waveSel := w }) ∧
    (¬ d.toNat ≤ 6 → exec (.ccWave ch d) s = .next s) ∧
    (d.toNat < s.params.numPresets → exec (.ccLayer ch d) s = .next { s with layerSel := d.toNat }) ∧
    (¬ d.toNat < s.params.numPresets → exec (.ccLayer ch d) s = .next s) ∧
    exec (.ccOther ch c d) s = .next s

/-- A malformed event counts in IGN_COUNT and changes nothing else (41_voice_allocator.md R320). -/
def Obligations.MalformedEvents : Prop :=
  ∀ (e : EventWord) (s : State),
    let known := e.extractLsb' 20 4 ∈ [0x8#4, 0x9#4, 0xB#4]
    (¬ known → decode s.params (.event e) = .evReserved e) ∧
    (known → (e.getLsbD 15 = true ∨ e.getLsbD 7 = true) → decode s.params (.event e) = .evBaddata e) ∧
    exec (.evReserved e) s = .next { s with ignCount := s.ignCount + 1 } ∧
    exec (.evBaddata e) s = .next { s with ignCount := s.ignCount + 1 }

/-- VELCURVE, segment by segment: the line through the two points of the segment that the velocity lies in, clamped
(41_voice_allocator.md R306).  It lies between VEL_GMIN and VEL_GMAX, and is VEL_GMAX when those two are the wrong way round
(R306, 10_state.md R53); with the reset registers it takes the values that R306 lists. -/
def Obligations.VelocityCurve : Prop :=
  (∀ (R : Regs) (vel : BitVec 7),
    let x := vel.toNat
    let lo := R.tLo.toNat
    let hi := R.tHi.toNat
    let segment := fun (xa : Nat) (ga : F32) (xb : Nat) (gb : F32) =>
      let t := fdiv (fofNat (x - xa)) (fofNat (xb - xa))
      fmin (fmax (fadd ga (fmul (fsub gb ga) t)) R.velGmin) R.velGmax
    (x ≤ lo → velCurve R vel = segment 0 R.velG0 lo R.velG1) ∧
    (lo < x → x ≤ hi → velCurve R vel = segment lo R.velG1 hi R.velG2) ∧
    (lo < x → hi < x → velCurve R vel = segment hi R.velG2 127 R.velG3)) ∧
  (∀ (R : Regs) (vel : BitVec 7), fIsNaN R.velGmin = false → fIsNaN R.velGmax = false →
    (fle R.velGmin R.velGmax = true →
      fle R.velGmin (velCurve R vel) = true ∧ fle (velCurve R vel) R.velGmax = true) ∧
    (fle R.velGmin R.velGmax = false → velCurve R vel = R.velGmax)) ∧
  ∀ P, velCurve (resetRegs P) 0 = 0x3E000000 ∧ velCurve (resetRegs P) 32 = 0x3F000000 ∧
    velCurve (resetRegs P) 64 = 0x3F800000 ∧ velCurve (resetRegs P) 96 = 0x3FC00000 ∧
    velCurve (resetRegs P) 127 = 0x40100000

/-! ## One sample -/

/-- ENV_STEP, state by state: the new state and value (43_envelope.md R426, R420).  One envelope step makes at most one
transition, and none out of Sustain or Off, keeps the value in [0, 1], gives Off the value +0.0, never falls in Attack,
never rises in Decay (from a value not below SUSTAIN) or Release, and holds Sustain (R428 (a)-(c), R421-R427). -/
def Obligations.EnvelopeStep : Prop :=
  (∀ (R : Regs) (x : F32),
    let n := fun seconds => fmax (fmul seconds (fofNat R.sampleRate.toNat)) f1
    let a := fadd x (fdiv f1 (n R.attackS))
    let d := fsub x (fdiv (fsub f1 R.sustain) (n R.decayS))
    let r := fsub x (fdiv x (n R.releaseS))
    envStep R .attack x = (if fle f1 a then (.decay, f1) else (.attack, a)) ∧
    envStep R .decay x = (if fle d R.sustain then (.sustain, R.sustain) else (.decay, d)) ∧
    envStep R .sustain x = (.sustain, x) ∧
    envStep R .release x = (if fle r R.envFloor then (.off, f0) else (.release, r)) ∧
    envStep R .off x = (.off, f0)) ∧
  ∀ (P : Params) (R : Regs) (st : EnvState) (x : F32), P.legal → RegsLegal P R → StartLegal P R → IsLevel x →
    ((st, (envStep R st x).1) ∈ [(.attack, .attack), (.attack, .decay), (.decay, .decay), (.decay, .sustain),
      (.sustain, .sustain), (.release, .release), (.release, .off), (.off, .off)]) ∧
    IsLevel (envStep R st x).2 ∧
    ((envStep R st x).1 = .off → (envStep R st x).2 = f0) ∧
    (st = .attack → fle x (envStep R st x).2 = true) ∧
    (st = .decay → fle R.sustain x = true → fle (envStep R st x).2 x = true) ∧
    (st = .release → fle (envStep R st x).2 x = true) ∧
    (st = .sustain → envStep R st x = (.sustain, x))

/-- Every phase draw lies in [0, 1) (00_scope.md R24).  The phase increment lies in [0, 0.5] whatever the frequency, and
an advance by such an increment keeps the phase in [0, 1); the vibrato LFO's advance keeps its phase in [0, 1)
(42_oscillator.md R382, R387, R370). -/
def Obligations.PhasesStayInRange : Prop :=
  (∀ n, IsPhase (drawPhase n)) ∧
  (∀ (R : Regs) (f : F32), fle f0 (phaseIncrement R f) = true ∧ fle (phaseIncrement R f) fHalf = true) ∧
  (∀ (p dt : F32), IsPhase p → fle f0 dt = true → fle dt fHalf = true → IsPhase (phaseAdvance p dt)) ∧
  ∀ (P : Params) (R : Regs) (l : F32), P.legal → RegsLegal P R → StartLegal P R → IsPhase l → IsPhase (lfoAdvance R l)

/-- The kernel and the seven generators, each with the formula of its rule, TrianglePoly with its three accumulators
(42_oscillator.md R351-R355, R357-R362).  The band-limiting kernel is exactly 0 for a zero increment and in [dt, 1 − dt]
and is −1 at phase 0, so that with a zero increment PulsePoly equals PulseRaw and SawPoly equals SawRaw (R355, R356, R358,
R359). -/
def Obligations.BandLimiting : Prop :=
  (∀ (dt t : F32),
    let u := fdiv t dt
    let v := fdiv (fsub t f1) dt
    polyBlep dt t =
      if fle dt f0 then f0
      else if flt t dt then fsub (fsub (fadd u u) (fmul u u)) f1
      else if flt (fsub f1 dt) t then fadd (fadd (fadd (fmul v v) v) v) f1
      else f0) ∧
  (∀ (R : Regs) (amp dt : F32) (o : Osc),
    let p := o.phase
    let q := fun (duty : F32) => if flt p duty then f1 else fneg f1
    let t2 := fun (duty : F32) => if flt (fsub p duty) f0 then fadd (fsub p duty) f1 else fsub p duty
    let sq := fun (duty : F32) => fsub (fadd (q duty) (polyBlep dt p)) (polyBlep dt (t2 duty))
    let saw := fsub (fmul f2 p) f1
    let integ := fadd (fmul R.dcBlock o.integ) (fmul (fmul f4 dt) (sq fHalf))
    let yn := fadd (fsub integ o.dcX) (fmul R.dcBlock o.dcY)
    (o.wave = .sine → generate R amp dt o = (fmul amp (sinT p), o)) ∧
    (o.wave = .pulseRaw → generate R amp dt o = (fmul amp (q o.duty), o)) ∧
    (o.wave = .sawRaw → generate R amp dt o = (fmul amp saw, o)) ∧
    (o.wave = .triangleRaw →
      generate R amp dt o = (fmul amp (fsub (fmul f2 (fabs (fmul f2 (fsub p fHalf)))) f1), o)) ∧
    (o.wave = .pulsePoly → generate R amp dt o = (fmul amp (sq o.duty), o)) ∧
    (o.wave = .sawPoly → generate R amp dt o = (fmul amp (fsub saw (polyBlep dt p)), o)) ∧
    (o.wave = .trianglePoly →
      generate R amp dt o = (fmul amp yn, { o with integ := integ, dcX := integ, dcY := yn }))) ∧
  (∀ (dt t : F32), fle dt f0 = true ∨ (fle dt t = true ∧ fle t (fsub f1 dt) = true) → polyBlep dt t = f0) ∧
  (∀ (dt : F32), flt f0 dt = true → fle dt fHalf = true → polyBlep dt f0 = fneg f1) ∧
  ∀ (R : Regs) (amp : F32) (o : Osc), IsPhase o.phase →
    (generate R amp f0 { o with wave := .pulsePoly }).1 = (generate R amp f0 { o with wave := .pulseRaw }).1 ∧
    (generate R amp f0 { o with wave := .sawPoly }).1 = (generate R amp f0 { o with wave := .sawRaw }).1

/-- OSC_STEP, written out: frequency, vibrato behind its gate, increment, generator, envelope, tremolo, the filter when
FILTER_EN = 1, the soft clip, and the advance of the slot (42_oscillator.md R389, R370-R388, 44_filter_mix.md R463).  One
frame's effect on the voices (44_filter_mix.md R470-R472): a voice that does not sound stays whole; of a voice that sounds
each slot below `count` makes one OSC_STEP, and the slots at and above `count` and the voice's own fields stay.  SOUNDING:
an active voice whose slot 0 is not Off, or an inactive one whose slot 0 is in Release (R470).  MIX: the
sums of the layers and of the voices, in ascending order, mono or through the pan law, times MASTER_VOLUME
(44_filter_mix.md R472-R477). -/
def Obligations.FrameAdvancesVoices : Prop :=
  (∀ (v : Voice), v.sounding = true ↔
    (v.active = true ∧ (v.osc 0).envState ≠ .off) ∨ (v.active = false ∧ (v.osc 0).envState = .release)) ∧
  (∀ (R : Regs) (base : F32) (o : Osc),
    let sr := fofNat R.sampleRate.toNat
    let l := fadd o.lfoPhase (fdiv R.vibRate sr)
    let l := if fle f1 l then fsub l f1 else l
    let f := fmul (fmul base o.oct) o.detune
    let f := if flt R.vibOnset o.elapsed then fadd f (fmul R.vibDepth (sinT l)) else f
    let dt := fclamp (fdiv f sr) f0 fHalf
    let g := generate R (fmul o.vol R.oscGain) dt o
    let e := envStep R o.envState o.envValue
    let m := fadd f1 (fmul R.tremDepth (sinT (ffrac (fmul R.tremRate o.elapsed))))
    let x := fmul (fmul g.1 e.2) m
    let fast := fadd o.fFast (fmul (fsub x o.fFast) R.filtAFast)
    let slow := fadd o.fSlow (fmul (fsub x o.fSlow) R.filtASlow)
    let q := fadd o.phase dt
    oscStep R base o =
      (tanh (if R.mode.getLsbD 0 then fsub fast slow else x),
       { g.2 with
         lfoPhase := if flt R.vibOnset o.elapsed then l else o.lfoPhase
         envState := e.1
         envValue := e.2
         fFast := if R.mode.getLsbD 0 then fast else o.fFast
         fSlow := if R.mode.getLsbD 0 then slow else o.fSlow
         phase := if fle f1 q then fsub q f1 else q
         elapsed := fadd o.elapsed (fdiv f1 sr) })) ∧
  (∀ (s : State),
    let R := s.active
    let layer := fun (v : Voice) => (v.oscs.take v.count).foldl
      (fun acc o => fadd acc (fdiv (oscStep R v.baseFreq o).1 (fofNat v.count))) f0
    let c := fun (v : Voice) => fdiv (fmul (tanh (fmul v.amplitude (layer v))) R.voiceGain) (fofNat s.params.voiceMax)
    let sum := fun (g : F32 → F32) => s.voices.foldl (fun m v => if v.sounding then fadd m (g (c v)) else m) f0
    (R.channels = 1 → (mix s).1 = fmul (sum fun y => y) R.masterVolume) ∧
    (R.channels = 2 →
      (mix s).1 = fmul (sum fun y => fmul y (sinT (fadd R.pan fQuarter))) R.masterVolume ∧
      (mix s).2.1 = fmul (sum fun y => fmul y (sinT R.pan)) R.masterVolume)) ∧
  ∀ (s : State),
    (frameStep s).voices.length = s.voices.length ∧
    ∀ v (h : v < s.voices.length),
      (s.voices[v].sounding = false → (frameStep s).voices[v]? = some s.voices[v]) ∧
      (s.voices[v].sounding = true →
        ∃ O, (frameStep s).voices[v]? = some { s.voices[v] with oscs := O } ∧ O.length = s.voices[v].oscs.length ∧
          ∀ o (ho : o < s.voices[v].oscs.length),
            (o < s.voices[v].count →
              O[o]? = some (oscStep s.active s.voices[v].baseFreq s.voices[v].oscs[o]).2) ∧
            (¬ o < s.voices[v].count → O[o]? = some s.voices[v].oscs[o]))

/-! ## Delay line, output and frames -/

/-- With DELAY_ACTIVE = 0 a frame leaves the delay RAM and both cursors as they are (45_delay_output.md R502). -/
def Obligations.DelayBypass : Prop :=
  ∀ (s : State), s.params.legal → s.visWr < s.params.visCap → s.active.delayActive = false →
    (∀ i, memRead (frameStep s).mem .dly i = memRead s.mem .dly i) ∧
    (frameStep s).delayRd = s.delayRd ∧ (frameStep s).delayWr = s.delayWr

/-- DELAY_STEP returns the soft-clipped mix of the dry value and the word at the read cursor, read before the write,
leaves that value in the word at the write cursor and every other word of the delay RAM as it was, and moves both
cursors by one (45_delay_output.md R501). -/
def Obligations.DelayStepResult : Prop :=
  ∀ (x : F32) (s : State), s.mem.wf = true →
    let R := s.active
    let d := memRead s.mem .dly s.delayRd
    let y := tanh (fmul R.delayGain (fadd (fmul (fsub f1 R.delayMix) x) (fmul R.delayMix (fmul R.delayFeedback d))))
    (delayStep x s).1 = y ∧
    memRead (delayStep x s).2.mem .dly s.delayWr = y ∧
    (∀ i, i ≠ s.delayWr → memRead (delayStep x s).2.mem .dly i = memRead s.mem .dly i) ∧
    (delayStep x s).2.mem.wf = true ∧
    (delayStep x s).2 = { s with
      mem := (delayStep x s).2.mem
      delayRd := (s.delayRd + 1) % s.params.delayCap
      delayWr := (s.delayWr + 1) % s.params.delayCap }

/-- After a latch that re-seats the read cursor the write cursor is DELAY_LEN words ahead of it, modulo the capacity,
and a frame keeps the distance (45_delay_output.md R503, 10_state.md R101). -/
def Obligations.CursorDistance : Prop :=
  (∀ (s : State), 0 < s.params.delayCap → s.dlenDirty = true →
    ((s.delayWr : Int) - ((latch s).delayRd : Int)) % (s.params.delayCap : Int) =
      (s.pend.delayLen.toNat : Int) % (s.params.delayCap : Int)) ∧
  ∀ (s : State), s.delayRd < s.params.delayCap → s.delayWr < s.params.delayCap →
    ((((frameStep s).delayWr : Int) - ((frameStep s).delayRd : Int)) % (s.params.delayCap : Int) =
      ((s.delayWr : Int) - (s.delayRd : Int)) % (s.params.delayCap : Int)) ∧
    (frameStep s).delayRd < s.params.delayCap ∧ (frameStep s).delayWr < s.params.delayCap

/-- Ring correctness (45_delay_output.md R504): after C + k DELAY_STEPs from write cursor 0, with k at most the
capacity C, word j of the delay RAM is output C + j for j < k and output j for k <= j < C. -/
def Obligations.RingCorrectness : Prop :=
  ∀ (s : State) (xs : List F32) (k : Nat), s.mem.wf = true → s.delayWr = 0 → k ≤ s.params.delayCap →
    xs.length = s.params.delayCap + k →
    ∀ j, j < s.params.delayCap →
      some (memRead (delaySteps xs s).2.mem .dly j) =
        (delaySteps xs s).1[if j < k then s.params.delayCap + j else j]?

/-- QUANT (45_delay_output.md R510): for |y| <= 1 it returns the nearest multiple of 2^-b, ties away from zero, exactly,
and it is idempotent; with QUANT_BITS = 0 it is bypassed.  Values are counted in units of 2^-149.  That the two quantized
words have the same bits at −0.0 too is the model's reading of R21, against one row of a vector table (notes 12). -/
def Obligations.Quantizer : Prop :=
  ∀ (y : F32) (b : Nat), IsSample y → 1 ≤ b → b ≤ 24 →
    (∃ k : Int, fvalue (quant y b) * 2 ^ b = k * 2 ^ 149 ∧ IsSample (quant y b) ∧
      2 * |fvalue y * 2 ^ b - k * 2 ^ 149| ≤ 2 ^ 149 ∧
      (2 * |fvalue y * 2 ^ b - k * 2 ^ 149| = 2 ^ 149 → |fvalue y * 2 ^ b| < |k * 2 ^ 149|)) ∧
    quant (quant y b) b = quant y b ∧
    ∀ R : Regs, R.quantBits = 0 → quantStage R y = y

/-- Every output value lies in [−1, 1] (45_delay_output.md R511): OUTPUT of a master value that MIX can give, with a
delayed word in [−1, 1], is in [−1, 1]; from a legal state MIX gives values of magnitude at most 256 where VOICE_MAX
divides 32, as 44_filter_mix.md R490 says, and at most 257 for every instance (the rounding of the voice sum can carry it
past 256, notes 18); and every step keeps the accumulators of the slots within the bounds of R390 and R490 and the words of
both RAMs in [−1, 1], and emits words in [−1, 1] only.  The bounds of the accumulators are the model's reading of R388,
R390 and R490 (notes 18). -/
def Obligations.OutputInRange : Prop :=
  (∀ (x : F32) (s : State), RegsLegal s.params s.active → Within 0x43808000 x →
    IsSample (memRead s.mem .dly s.delayRd) → IsSample (output x s).1) ∧
  (∀ (s : State), Legal s → Tuned s → Bounded s → s.busy = true →
    (Within 0x43808000 (mix s).1 ∧ Within 0x43808000 (mix s).2.1) ∧
    (s.params.voiceMax ∣ 32 → Within 0x43800000 (mix s).1 ∧ Within 0x43800000 (mix s).2.1)) ∧
  ∀ (s t : State), Legal s → Tuned s → Bounded s → step s = .next t →
    Bounded t ∧ ∃ ys, t.out = s.out ++ ys ∧ ∀ y ∈ ys, IsSample y

/-- The visualization ring takes channel 0's emitted word of each frame at its cursor, which moves by one; every other
word of VIS stays (45_delay_output.md R522). -/
def Obligations.VisualizationRing : Prop :=
  ∀ (s : State), s.params.legal → s.mem.wf = true → s.visWr < s.params.visCap →
    (s.active.channels = 1 ∨ s.active.channels = 2) →
    some (memRead (frameStep s).mem .vis s.visWr) = (frameStep s).out[s.out.length]? ∧
    (∀ i, i < s.params.visCap → i ≠ s.visWr → memRead (frameStep s).mem .vis i = memRead s.mem .vis i) ∧
    (frameStep s).visWr = (s.visWr + 1) % s.params.visCap

/-- The bytes a frame writes: those of the VIS word at its cursor and, with DELAY_ACTIVE = 1, those of the DLY word at
the write cursor, in stereo of the next one too; every other byte of memory reads as before (45_delay_output.md R501,
R522, R530).  The byte addresses are those of the host's windows (notes 8). -/
def Obligations.FrameMemory : Prop :=
  ∀ (s : State) (a : Nat), (s.active.channels = 1 ∨ s.active.channels = 2) →
    let outside := fun (w : Nat) => a < w ∨ w + 3 < a
    outside (wordAddr .vis s.visWr) →
    (s.active.delayActive = true →
      outside (wordAddr .dly s.delayWr) ∧
      (s.active.channels = 2 → outside (wordAddr .dly ((s.delayWr + 1) % s.params.delayCap)))) →
    (frameStep s).mem.read a = s.mem.read a

/-- A render as a whole (45_delay_output.md R532, R520, R531): from N frames left, N engine steps emit N·CHANNELS words
after those already emitted, add N to FRAME_COUNT, move `vis_wr` by N and, with DELAY_ACTIVE = 1, both delay cursors by
N·CHANNELS; then BUSY = 0 and a pending STOP has taken effect; the configuration, the queue and the errors stay. -/
def Obligations.RenderAsAWhole : Prop :=
  ∀ (s : State) (N : Nat), s.framesLeft = N → 0 < N → (s.active.channels = 1 ∨ s.active.channels = 2) →
    let c := s.active.channels.toNat
    let t := engineStep^[N] s
    (∃ ys, t.out = s.out ++ ys ∧ ys.length = N * c) ∧
    t.frameCount = s.frameCount + BitVec.ofNat 32 N ∧ t.frameIdx = s.frameIdx + N ∧
    t.visWr = (s.visWr + N) % s.params.visCap ∧
    t.delayRd = (if s.active.delayActive then (s.delayRd + N * c) % s.params.delayCap else s.delayRd) ∧
    t.delayWr = (if s.active.delayActive then (s.delayWr + N * c) % s.params.delayCap else s.delayWr) ∧
    t.framesLeft = 0 ∧ t.run = (s.run && !s.stopPending) ∧ t.stopPending = false ∧
    t.active = s.active ∧ t.pend = s.pend ∧ t.queue = s.queue ∧ t.waveSel = s.waveSel ∧ t.layerSel = s.layerSel ∧
    t.cfgErr = s.cfgErr ∧ t.busErr = s.busErr ∧ t.renderErr = s.renderErr ∧ t.lastErr = s.lastErr ∧
    t.dropCount = s.dropCount ∧ t.ignCount = s.ignCount ∧ t.qovfCount = s.qovfCount

/-- While no voice sounds and the delay RAM is silent every frame emits +0.0 on each channel and the block stays so
(70_reset_and_hazards.md R703, 44_filter_mix.md R477). -/
def Obligations.SilenceStaysSilent : Prop :=
  ∀ (s : State), s.params.legal → RegsLegal s.params s.active → (s.active.channels = 1 ∨ s.active.channels = 2) →
    s.mem.wf = true → s.delayRd < s.params.delayCap → s.delayWr < s.params.delayCap → s.visWr < s.params.visCap →
    Quiet s →
    (frameStep s).out = s.out ++ List.replicate s.active.channels.toNat f0 ∧ Quiet (frameStep s)

/-- The engine raises nothing: neither a frame nor a boundary changes an error flag or LAST_ERR; and an instruction that
changes LAST_ERR leaves one of the listed codes there (60_exceptions.md R601, R602, R603). -/
def Obligations.EngineRaisesNothing : Prop :=
  (∀ (s : State), (frameStep s).cfgErr = s.cfgErr ∧ (frameStep s).busErr = s.busErr ∧
    (frameStep s).renderErr = s.renderErr ∧ (frameStep s).lastErr = s.lastErr) ∧
  (∀ (s : State), (boundary s).cfgErr = s.cfgErr ∧ (boundary s).busErr = s.busErr ∧
    (boundary s).renderErr = s.renderErr ∧ (boundary s).lastErr = s.lastErr) ∧
  ∀ (i : Instr) (s t : State), exec i s = .next t → t.lastErr ≠ s.lastErr →
    t.lastErr ∈ [0x00#8, 0x01#8, 0x02#8, 0x10#8, 0x11#8, 0x12#8, 0x20#8]

/-! ## Numbers -/

/-- Every `+`, `−`, `×` and `/` on finite values gives the binary32 value nearest to the exact result, ties to even, and
that result is finite just when the exact result is below the middle of the largest finite value and 2^128 (00_scope.md
R20).  Values are counted in units of 2^-149, as the fields of the format give them.  Comparison is that of the values, and
min, max, clamp, |x|, floor, frac and round_ha are as R21 says; float(n) is exact (R20, R21).  That a result from the
middle on is no finite value, and the sign of a zero result, are IEEE 754's, the format that R20 names (notes 6). -/
def Obligations.ArithmeticRounds : Prop :=
  (∀ (x : F32),
    let e := (x.extractLsb' 23 8).toNat
    let f := (x.extractLsb' 0 23).toNat
    fIsFinite x = decide (e < 255) ∧ fIsNaN x = decide (e = 255 ∧ f ≠ 0) ∧ fmag x = e * 2 ^ 23 + f ∧
    fvalue x = (if x.msb then -1 else 1) * (if e = 0 then f else (2 ^ 23 + f) * 2 ^ (e - 1) : Nat)) ∧
  (∀ (a b : F32), fIsFinite a = true → fIsFinite b = true →
    let top : Int := (2 ^ 25 - 1) * 2 ^ 252
    (fIsFinite (fadd a b) = true ↔ |fvalue a + fvalue b| < top) ∧
    (fIsFinite (fsub a b) = true ↔ |fvalue a - fvalue b| < top) ∧
    (fIsFinite (fmul a b) = true ↔ |fvalue a * fvalue b| < top * 2 ^ 149) ∧
    (fvalue b ≠ 0 → (fIsFinite (fdiv a b) = true ↔ |fvalue a| * 2 ^ 149 < top * |fvalue b|)) ∧
    (fvalue a + fvalue b = 0 → fadd a b = if a.msb && b.msb then fneg f0 else f0) ∧
    (fvalue a - fvalue b = 0 → fsub a b = if a.msb && !b.msb then fneg f0 else f0) ∧
    (fmul a b).msb = (a.msb != b.msb) ∧ (fvalue b ≠ 0 → (fdiv a b).msb = (a.msb != b.msb))) ∧
  (∀ (a b y : F32), fIsFinite a = true → fIsFinite b = true → fIsFinite y = true →
    (fIsFinite (fadd a b) = true →
      |fvalue (fadd a b) - (fvalue a + fvalue b)| ≤ |fvalue y - (fvalue a + fvalue b)| ∧
      (|fvalue (fadd a b) - (fvalue a + fvalue b)| = |fvalue y - (fvalue a + fvalue b)| →
        fvalue y ≠ fvalue (fadd a b) → fmag (fadd a b) % 2 = 0)) ∧
    (fIsFinite (fsub a b) = true →
      |fvalue (fsub a b) - (fvalue a - fvalue b)| ≤ |fvalue y - (fvalue a - fvalue b)| ∧
      (|fvalue (fsub a b) - (fvalue a - fvalue b)| = |fvalue y - (fvalue a - fvalue b)| →
        fvalue y ≠ fvalue (fsub a b) → fmag (fsub a b) % 2 = 0)) ∧
    (fIsFinite (fmul a b) = true →
      |fvalue (fmul a b) * 2 ^ 149 - fvalue a * fvalue b| ≤ |fvalue y * 2 ^ 149 - fvalue a * fvalue b| ∧
      (|fvalue (fmul a b) * 2 ^ 149 - fvalue a * fvalue b| = |fvalue y * 2 ^ 149 - fvalue a * fvalue b| →
        fvalue y ≠ fvalue (fmul a b) → fmag (fmul a b) % 2 = 0)) ∧
    (fIsFinite (fdiv a b) = true → fvalue b ≠ 0 →
      |fvalue (fdiv a b) * fvalue b - fvalue a * 2 ^ 149| ≤ |fvalue y * fvalue b - fvalue a * 2 ^ 149| ∧
      (|fvalue (fdiv a b) * fvalue b - fvalue a * 2 ^ 149| = |fvalue y * fvalue b - fvalue a * 2 ^ 149| →
        fvalue y ≠ fvalue (fdiv a b) → fmag (fdiv a b) % 2 = 0))) ∧
  (∀ (n : Nat), n ≤ 2 ^ 24 → fIsFinite (fofNat n) = true ∧ fvalue (fofNat n) = n * 2 ^ 149) ∧
  (∀ (a b : F32), fIsFinite a = true → fIsFinite b = true →
    fle a b = decide (fvalue a ≤ fvalue b) ∧ flt a b = decide (fvalue a < fvalue b) ∧
    feq a b = decide (fvalue a = fvalue b) ∧
    fmin a b = (if fvalue a ≤ fvalue b then a else b) ∧ fmax a b = (if fvalue b ≤ fvalue a then a else b)) ∧
  (∀ (x lo hi : F32), fclamp x lo hi = fmin (fmax x lo) hi) ∧
  (∀ (x : F32), (fabs x).msb = false ∧ fmag (fabs x) = fmag x ∧ (fneg x).msb = !x.msb ∧ fmag (fneg x) = fmag x) ∧
  ∀ (x : F32), fIsFinite x = true →
    (∃ k : Int, fIsFinite (ffloor x) = true ∧ fvalue (ffloor x) = k * 2 ^ 149 ∧ k * 2 ^ 149 ≤ fvalue x ∧
      fvalue x < (k + 1) * 2 ^ 149) ∧
    ffrac x = fsub x (ffloor x) ∧
    (0 ≤ fvalue x → fIsFinite (ffrac x) = true ∧ fvalue (ffrac x) = fvalue x - fvalue (ffloor x)) ∧
    ∃ k : Int, fIsFinite (froundHa x) = true ∧ (froundHa x).msb = x.msb ∧ fvalue (froundHa x) = k * 2 ^ 149 ∧
      2 * |fvalue x - k * 2 ^ 149| ≤ 2 ^ 149 ∧ (2 * |fvalue x - k * 2 ^ 149| = 2 ^ 149 → |fvalue x| < |k * 2 ^ 149|)

/-- NOTE_FREQ(k) is the binary32 value nearest to 440·2^((k − 69)/12) (00_scope.md R23): with u its units of 2^-149 and
w those of any other finite value, the exact value X lies on u's side of their middle, which is said as a comparison of
12th powers, (2X)^12 = (880·2^149)^12 · 2^k / 2^69; and NOTE_FREQ(69) and NOTE_FREQ(81) are 440 and 880. -/
def Obligations.NoteFrequencies : Prop :=
  (∀ (k : BitVec 7) (y : F32), fIsFinite y = true → y.msb = false →
    (funits (noteFreq k) < funits y →
      (880 * 2 ^ 149) ^ 12 * 2 ^ k.toNat ≤ (funits (noteFreq k) + funits y) ^ 12 * 2 ^ 69) ∧
    (funits y < funits (noteFreq k) →
      (funits (noteFreq k) + funits y) ^ 12 * 2 ^ 69 ≤ (880 * 2 ^ 149) ^ 12 * 2 ^ k.toNat)) ∧
  (∀ k : BitVec 7, (noteFreq k).msb = false ∧ fIsFinite (noteFreq k) = true) ∧
  noteFreq 69 = 0x43DC0000 ∧ noteFreq 81 = 0x445C0000

/-- The properties of SIN_T that a model may assume (00_scope.md R22): bounded by 1 on [0, 1.25], exact at the quarter
turns, and symmetric wherever the shifted argument is a binary32 value.  Arguments are counted in units of 2^-149.  That
the zeros are +0.0, and that the symmetries hold just where the shifted argument is exact, is the model's reading
(notes 2). -/
def Obligations.SineProperties : Prop :=
  (∀ x, fle f0 x = true → fle x f1p25 = true → IsSample (sinT x)) ∧
  sinT f0 = f0 ∧ sinT fQuarter = f1 ∧ sinT fHalf = f0 ∧ sinT 0x3F400000 = fneg f1 ∧ sinT f1 = f0 ∧
  (∀ x y, fle f0 x = true → fle x fHalf = true → fIsFinite y = true → fvalue y = fvalue fHalf - fvalue x →
    sinT y = sinT x) ∧
  ∀ x y, fle f0 x = true → flt x fHalf = true → fIsFinite y = true → fvalue y = fvalue x + fvalue fHalf →
    feq (sinT y) (fneg (sinT x)) = true

/-- The properties of TANH that a model may assume (00_scope.md R22): on finite values it is odd, monotone, zero at zero
and bounded by 1.  That a zero result keeps the sign bit of its argument, so that TANH(−0.0) = −0.0, is the model's reading
of oddness (notes 3). -/
def Obligations.TanhProperties : Prop :=
  (∀ x, fIsFinite x = true → IsSample (tanh x) ∧ tanh (fneg x) = fneg (tanh x)) ∧ tanh f0 = f0 ∧
  ∀ x y, fIsFinite x = true → fIsFinite y = true → fle x y = true → fle (tanh x) (tanh y) = true

/-! ## Invariants -/

/-- Every instance's reset state is legal, has its envelopes and phases in order and its accumulators within their bounds,
is quiet, and has no two voices on one key (70_reset_and_hazards.md R700, 10_state.md R62). -/
def Obligations.ResetInvariants : Prop :=
  ∀ (P : Params), P.legal →
    Legal (State.resetOf P) ∧ Tuned (State.resetOf P) ∧ Bounded (State.resetOf P) ∧ Quiet (State.resetOf P) ∧
      OneVoicePerKey (State.resetOf P)

/-- Every step keeps the canonical form of the memory (the model's representation of the two RAMs, notes 8). -/
def Obligations.MemoryFormKept : Prop :=
  ∀ (s t : State), s.mem.wf = true → step s = .next t → t.mem.wf = true

/-- Every step keeps the state legal: the registers of both copies, the queue, the selections, the cursors, the progress
and the voices' fields, the amplitude among them, in the ranges that 10_state.md gives them (R52-R55, R60, R70, R71, R80,
R85, R102-R107, R131), LAST_ERR one of the listed codes (60_exceptions.md R601), SAMPLE_RATE and CHANNELS legal while
RUN = 1 (40_host_commands.md R256, 10_state.md R108), BUSY only while RUN = 1, and a pending STOP only during a render
(40_host_commands.md R257, 45_delay_output.md R531).  Phases and envelope values are in TunedKept, the accumulators and
the RAMs' words in OutputInRange. -/
def Obligations.LegalKept : Prop := ∀ (s t : State), Legal s → step s = .next t → Legal t

/-- Every step keeps the invariant of 10_state.md R62: phases in [0, 1), envelope values in [0, 1], Off at +0.0, and the
same envelope in all the slots of a voice. -/
def Obligations.TunedKept : Prop := ∀ (s t : State), Legal s → Tuned s → step s = .next t → Tuned t

/-- While RETRIG_NEW is 0 in both copies every step keeps at most one active voice on any key
(41_voice_allocator.md R307). -/
def Obligations.OneVoicePerKeyKept : Prop :=
  ∀ (s t : State), s.active.retrigNew = false → s.pend.retrigNew = false → OneVoicePerKey s → step s = .next t →
    OneVoicePerKey t

/-! ## Words by address, and the words of a frame -/

/-- What an aligned read returns, by address (10_state.md R100-R121, 20_memory.md R152-R157): the constants, the control
registers, the counters, the cursors, SEL, the pending configuration and presets, each word of each voice and slot window,
and the RAMs' words.  Engine-written state, as 20_memory.md R162 lists it, returns a draw while BUSY = 1; everything else is
exact at all times.  `rdata` and the counter of draws are the model's fields (notes 9, 5). -/
def Obligations.RegisterReads : Prop :=
  ∀ (s : State), s.params.legal → s.layerSel < s.params.numPresets →
    let P := s.params
    let R := s.pend
    let exact := fun (a : Nat) (w : Word) => exec (.rd (BitVec.ofNat 20 a)) s = .next { s with rdata := w }
    let engine := fun (a : Nat) (w : Word) =>
      (s.framesLeft = 0 → exact a w) ∧
      (0 < s.framesLeft → exec (.rd (BitVec.ofNat 20 a)) s =
        .next { s with rdata := Config.readDraw s.draws, draws := s.draws + 1 })
    (exact 0x00 0x53475341 ∧
      exact 0x04 (BitVec.ofNat 32 (P.voiceMax + P.oscMax * 2 ^ 8 + P.numPresets * 2 ^ 12 + P.cmdqDepth * 2 ^ 16)) ∧
      exact 0x08 (BitVec.ofNat 32 P.delayCap) ∧ exact 0x0C (BitVec.ofNat 32 (P.visCap + P.nmax * 2 ^ 16)) ∧
      exact 0x10 (if s.run then 1 else 0) ∧ exact 0x14 (statusWord s) ∧ exact 0x18 0 ∧ exact 0x1C 0 ∧
      engine 0x20 s.dropCount ∧ engine 0x24 s.ignCount ∧ exact 0x28 s.qovfCount ∧ engine 0x2C s.frameCount ∧
      engine 0x30 (BitVec.ofNat 32 s.delayRd) ∧ engine 0x34 (BitVec.ofNat 32 s.delayWr) ∧
      engine 0x38 (BitVec.ofNat 32 s.visWr) ∧ engine 0x3C (BitVec.ofNat 32 (s.waveSel.code + s.layerSel * 2 ^ 8))) ∧
    (∀ aw ∈
      [(0x100, R.sampleRate), (0x104, R.channels), (0x108, BitVec.ofNat 32 R.mode.toNat), (0x10C, R.masterVolume),
       (0x110, R.voiceGain), (0x114, R.oscGain), (0x118, R.delayGain), (0x11C, R.delayFeedback), (0x120, R.delayMix),
       (0x124, R.delayLen), (0x128, R.vibRate), (0x12C, R.vibDepth), (0x130, R.vibOnset), (0x134, R.tremRate),
       (0x138, R.tremDepth), (0x13C, R.quantBits)] ++
      [(0x140, R.attackS), (0x144, R.decayS), (0x148, R.sustain), (0x14C, R.releaseS), (0x150, R.envFloor),
       (0x154, R.filtAFast), (0x158, R.filtASlow), (0x15C, R.dcBlock), (0x160, R.pan),
       (0x164, BitVec.ofNat 32 (R.tLo.toNat + R.tHi.toNat * 2 ^ 8)), (0x168, R.velG0), (0x16C, R.velG1),
       (0x170, R.velG2), (0x174, R.velG3), (0x178, R.velGmin), (0x17C, R.velGmax)], exact aw.1 aw.2) ∧
    (∀ p, p < P.numPresets →
      exact (0x800 + 0x100 * p) (R.preset p).count ∧
      ∀ o, o < P.oscMax →
        let W := (R.preset p).slot o
        let a := 0x880 + 0x100 * p + 0x10 * o
        exact a W.oct ∧ exact (a + 4) W.duty ∧ exact (a + 8) W.vol ∧ exact (a + 12) W.detune) ∧
    (∀ v, v < P.voiceMax →
      let V := s.voice v
      let a := 0x1000 + 0x20 * v
      engine a (vstatWord V) ∧ engine (a + 0x04) V.amplitude ∧ engine (a + 0x08) V.baseFreq ∧
      (∀ j, 3 ≤ j → j < 8 → engine (a + 4 * j) 0) ∧
      ∀ o, o < P.oscMax →
        let O := V.osc o
        let b := 0x4000 + 0x200 * v + 0x40 * o
        engine b (ostatWord O) ∧ engine (b + 0x04) O.phase ∧ engine (b + 0x08) O.envValue ∧
        engine (b + 0x0C) O.elapsed ∧ engine (b + 0x10) O.lfoPhase ∧ engine (b + 0x14) O.integ ∧
        engine (b + 0x18) O.dcX ∧ engine (b + 0x1C) O.dcY ∧ engine (b + 0x20) O.fFast ∧ engine (b + 0x24) O.fSlow ∧
        engine (b + 0x28) O.oct ∧ engine (b + 0x2C) O.duty ∧ engine (b + 0x30) O.vol ∧ engine (b + 0x34) O.detune ∧
        engine (b + 0x38) 0 ∧ engine (b + 0x3C) 0) ∧
    (∀ i, i < P.visCap → engine (0x8000 + 4 * i) (memRead s.mem .vis i)) ∧
    ∀ i, i < P.delayCap → engine (0x40000 + 4 * i) (memRead s.mem .dly i)

/-- The words a frame emits and the words it leaves in the delay RAM (45_delay_output.md R511, R501, R520, R530): OUTPUT
of MIX's x_0, then in stereo of x_1, each through DELAY_STEP when DELAY_ACTIVE = 1 and TANH otherwise, then through QUANT
when QUANT_BITS is above 0; the ring takes the values before QUANT.  Channel 1 reads the ring after channel 0 has written
it.  `out` is the output stream (notes 14). -/
def Obligations.FrameOutput : Prop :=
  ∀ (s : State), s.params.legal → s.mem.wf = true → s.visWr < s.params.visCap → s.delayRd < s.params.delayCap →
    s.delayWr < s.params.delayCap →
    let R := s.active
    let cap := s.params.delayCap
    let clip := fun (x d : F32) =>
      if R.mode.getLsbD 1 then
        tanh (fmul R.delayGain (fadd (fmul (fsub f1 R.delayMix) x) (fmul R.delayMix (fmul R.delayFeedback d))))
      else tanh x
    let q := fun (y : F32) => if 0 < R.quantBits.toNat then quant y R.quantBits.toNat else y
    let next := fun (i : Nat) => (i + 1) % cap
    let y0 := clip (mix s).1 (memRead s.mem .dly s.delayRd)
    let y1 := clip (mix s).2.1 (if next s.delayRd = s.delayWr then y0 else memRead s.mem .dly (next s.delayRd))
    let after := fun (i : Nat) => memRead (frameStep s).mem .dly i
    (R.channels = 1 →
      (frameStep s).out = s.out ++ [q y0] ∧ (R.mode.getLsbD 1 = true → after s.delayWr = y0)) ∧
    (R.channels = 2 →
      (frameStep s).out = s.out ++ [q y0, q y1] ∧
      (R.mode.getLsbD 1 = true → after (next s.delayWr) = y1 ∧ (cap ≠ 1 → after s.delayWr = y0)))
end

