-- ==== Sys2Proof/Laws/Decode.lean ====
section
/-!
SUPPORT. What the fields of an encoded word are, and which instruction a word of each kind decodes to.
-/

namespace Sys2Proof

@[simp] theorem busRw_busWord (rw : Bool) (a : BusAddr) (w : Word) : busRw (busWord rw a w) = rw := by
  have h : (busWord rw a w).getLsbD 52 = (if rw then 1#1 else 0#1).getLsbD 0 := by
    unfold busWord
    simp only [BitVec.getLsbD_append]
    rw [if_neg (by omega), if_neg (by omega)]
  unfold busRw
  rw [h]
  cases rw <;> rfl

@[simp] theorem busAddr_busWord (rw : Bool) (a : BusAddr) (w : Word) : busAddr (busWord rw a w) = a := by
  ext i hi
  have h : (busWord rw a w).getLsbD (32 + i) = a.getLsbD i := by
    have e : 32 + i - 32 = i := by omega
    unfold busWord
    simp only [BitVec.getLsbD_append, e]
    rw [if_neg (by omega), if_pos (by omega)]
  simp only [busAddr, BitVec.getElem_extractLsb', h, BitVec.getLsbD_eq_getElem hi]

@[simp] theorem busData_busWord (rw : Bool) (a : BusAddr) (w : Word) : busData (busWord rw a w) = w := by
  ext i hi
  have h : (busWord rw a w).getLsbD i = w.getLsbD i := by
    unfold busWord
    simp only [BitVec.getLsbD_append]
    rw [if_pos hi]
  simp only [busData, BitVec.getElem_extractLsb', Nat.zero_add, h, BitVec.getLsbD_eq_getElem hi]

@[simp] theorem eventWord_type (t ch : BitVec 4) (d1 d2 : BitVec 7) : (eventWord t ch d1 d2).extractLsb' 20 4 = t := by
  ext i hi
  have h : (eventWord t ch d1 d2).getLsbD (20 + i) = t.getLsbD i := by
    have e : 20 + i - (1 + 7) - (1 + 7) - 4 = i := by omega
    unfold eventWord
    simp only [BitVec.getLsbD_append, e]
    rw [if_neg (by omega), if_neg (by omega), if_neg (by omega)]
  simp only [BitVec.getElem_extractLsb', h, BitVec.getLsbD_eq_getElem hi]

@[simp] theorem eventWord_chan (t ch : BitVec 4) (d1 d2 : BitVec 7) : (eventWord t ch d1 d2).extractLsb' 16 4 = ch := by
  ext i hi
  have h : (eventWord t ch d1 d2).getLsbD (16 + i) = ch.getLsbD i := by
    have e : 16 + i - (1 + 7) - (1 + 7) = i := by omega
    unfold eventWord
    simp only [BitVec.getLsbD_append, e]
    rw [if_neg (by omega), if_neg (by omega), if_pos (by omega)]
  simp only [BitVec.getElem_extractLsb', h, BitVec.getLsbD_eq_getElem hi]

@[simp] theorem eventWord_data1 (t ch : BitVec 4) (d1 d2 : BitVec 7) : (eventWord t ch d1 d2).extractLsb' 8 7 = d1 := by
  ext i hi
  have h : (eventWord t ch d1 d2).getLsbD (8 + i) = d1.getLsbD i := by
    have e : 8 + i - (1 + 7) = i := by omega
    unfold eventWord
    simp only [BitVec.getLsbD_append, e]
    rw [if_neg (by omega), if_pos (by omega), if_pos (by omega)]
  simp only [BitVec.getElem_extractLsb', h, BitVec.getLsbD_eq_getElem hi]

@[simp] theorem eventWord_data2 (t ch : BitVec 4) (d1 d2 : BitVec 7) : (eventWord t ch d1 d2).extractLsb' 0 7 = d2 := by
  ext i hi
  have h : (eventWord t ch d1 d2).getLsbD i = d2.getLsbD i := by
    unfold eventWord
    simp only [BitVec.getLsbD_append]
    rw [if_pos (by omega), if_pos (by omega)]
  simp only [BitVec.getElem_extractLsb', Nat.zero_add, h, BitVec.getLsbD_eq_getElem hi]

@[simp] theorem eventWord_d1h (t ch : BitVec 4) (d1 d2 : BitVec 7) : (eventWord t ch d1 d2).getLsbD 15 = false := by
  unfold eventWord
  simp only [BitVec.getLsbD_append]
  rw [if_neg (by omega), if_pos (by omega), if_neg (by omega)]
  rfl

@[simp] theorem eventWord_d2h (t ch : BitVec 4) (d1 d2 : BitVec 7) : (eventWord t ch d1 d2).getLsbD 7 = false := by
  unfold eventWord
  simp only [BitVec.getLsbD_append]
  rw [if_pos (by omega), if_neg (by omega)]
  rfl

/-- A misaligned transaction is BUS_MISALIGNED. -/
theorem decodeBus_misaligned (P : Params) (rw : Bool) (a : BusAddr) (w : Word) (h : aligned a = false) :
    decodeBus P (busWord rw a w) = .busMisaligned rw a (if rw then w else 0) := by
  simp [decodeBus, h]

/-- An aligned read is RD. -/
theorem decodeBus_read (P : Params) (a : BusAddr) (w : Word) (h : aligned a = true) :
    decodeBus P (busWord false a w) = .rd a := by
  simp [decodeBus, h]

/-- An aligned write is decoded by its address. -/
theorem decodeBus_write (P : Params) (a : BusAddr) (w : Word) (h : aligned a = true) :
    decodeBus P (busWord true a w) = decodeWrite P a w := by
  simp [decodeBus, h]

end Sys2Proof
end

