-- ==== Sys2Proof/Laws/Memory.lean ====
section
/-!
SUPPORT. The laws of the memory: what a read gives after a write, and that every write keeps the canonical form.
-/

namespace Sys2Proof.Machine

theorem Memory.wfAbove_mono {low low' : Option Nat} {m : Memory} (h : ∀ b, low'.all (· < b) = false → low.all (· < b) = false)
    (hw : Memory.wfAbove low m = true) : Memory.wfAbove low' m = true := by
  cases m with
  | nil => rfl
  | cons c m =>
    obtain ⟨b, v⟩ := c
    simp only [Memory.wfAbove, Bool.and_eq_true] at hw ⊢
    refine ⟨⟨?_, hw.1.2⟩, hw.2⟩
    cases hb : low'.all (· < b) with
    | true => rfl
    | false => rw [h b hb] at hw; exact absurd hw.1.1 (by simp)

/-- Below the lowest listed address every byte reads as unlisted. -/
theorem Memory.read_of_wfAbove {n a : Nat} {m : Memory} (h : Memory.wfAbove (some n) m = true) (ha : a ≤ n) :
    m.read a = unlistedByte := by
  induction m generalizing n with
  | nil => rfl
  | cons c m ih =>
    obtain ⟨b, v⟩ := c
    simp only [Memory.wfAbove, Option.all_some, Bool.and_eq_true, decide_eq_true_eq] at h
    have hb : b ≠ a := by omega
    simp only [Memory.read, if_neg hb]
    exact ih h.2 (by omega)

theorem Memory.write_wfAbove (m : Memory) (a : Nat) (v : Byte) (low : Option Nat) (h : Memory.wfAbove low m = true)
    (ha : low.all (· < a) = true) : Memory.wfAbove low (m.write a v) = true := by
  induction m generalizing low with
  | nil =>
    simp only [Memory.write]
    split
    · rfl
    · rename_i hv; simp [Memory.wfAbove, ha, hv]
  | cons c m ih =>
    obtain ⟨b, u⟩ := c
    have h' := h
    simp only [Memory.wfAbove, Bool.and_eq_true, bne_iff_ne] at h
    simp only [Memory.write]
    split
    · rename_i hab
      split
      · exact h'
      · rename_i hv
        simp only [Memory.wfAbove, Bool.and_eq_true, bne_iff_ne, Option.all_some, decide_eq_true_eq]
        exact ⟨⟨ha, hv⟩, ⟨hab, h.1.2⟩, h.2⟩
    · split
      · rename_i hab heq
        subst heq
        split
        · refine Memory.wfAbove_mono (fun c hc => ?_) h.2
          cases low with
          | none => simp at hc
          | some n =>
            simp only [Option.all_some, decide_eq_false_iff_not, Nat.not_lt, decide_eq_true_eq] at hc ha ⊢
            omega
        · rename_i hv
          simp only [Memory.wfAbove, Bool.and_eq_true, bne_iff_ne]
          exact ⟨⟨ha, hv⟩, h.2⟩
      · rename_i hab hne
        simp only [Memory.wfAbove, Bool.and_eq_true, bne_iff_ne]
        refine ⟨⟨h.1.1, h.1.2⟩, ih _ h.2 ?_⟩
        simp only [Option.all_some, decide_eq_true_eq]
        omega

/-- A write keeps the canonical form. -/
theorem Memory.write_wf {m : Memory} (a : Nat) (v : Byte) (h : m.wf = true) : (m.write a v).wf = true :=
  Memory.write_wfAbove m a v none h rfl

/-- A write leaves every other byte as it was. -/
theorem Memory.read_write_other (m : Memory) {a c : Nat} (v : Byte) (h : c ≠ a) : (m.write a v).read c = m.read c := by
  induction m with
  | nil => simp only [Memory.write]; split <;> simp [Memory.read, Ne.symm h]
  | cons e m ih =>
    obtain ⟨b, u⟩ := e
    simp only [Memory.write]
    split
    · split
      · rfl
      · simp [Memory.read, Ne.symm h]
    · split
      · rename_i heq
        subst heq
        split <;> simp [Memory.read, Ne.symm h]
      · simp only [Memory.read, ih]

theorem Memory.read_write_sameAbove (m : Memory) (a : Nat) (v : Byte) (low : Option Nat)
    (h : Memory.wfAbove low m = true) : (m.write a v).read a = v := by
  induction m generalizing low with
  | nil =>
    simp only [Memory.write]
    split
    · rename_i hv; simp [Memory.read, hv]
    · simp [Memory.read]
  | cons e m ih =>
    obtain ⟨b, u⟩ := e
    simp only [Memory.wfAbove, Bool.and_eq_true] at h
    simp only [Memory.write]
    split
    · rename_i hab
      split
      · rename_i hv
        have hb : b ≠ a := by omega
        simp only [Memory.read, if_neg hb, hv]
        exact Memory.read_of_wfAbove h.2 (by omega)
      · simp [Memory.read]
    · split
      · rename_i heq
        subst heq
        split
        · rename_i hv; rw [hv]; exact Memory.read_of_wfAbove h.2 (Nat.le_refl _)
        · simp [Memory.read]
      · rename_i hab hne
        simp only [Memory.read, if_neg (Ne.symm hne)]
        exact ih _ h.2

/-- A read after a write to the same address gives the byte written. -/
theorem Memory.read_write_same {m : Memory} (a : Nat) (v : Byte) (h : m.wf = true) : (m.write a v).read a = v :=
  Memory.read_write_sameAbove m a v none h

/-- A word write keeps the canonical form. -/
theorem Memory.writeWord_wf {m : Memory} (a : Nat) (w : Word) (h : m.wf = true) : (m.writeWord a w).wf = true :=
  write_wf _ _ (write_wf _ _ (write_wf _ _ (write_wf _ _ h)))

/-- A word write leaves every byte outside its four bytes as it was. -/
theorem Memory.read_writeWord_other (m : Memory) {a c : Nat} (w : Word) (h : c < a ∨ a + 3 < c) :
    (m.writeWord a w).read c = m.read c := by
  unfold Memory.writeWord
  rw [read_write_other _ _ (by omega), read_write_other _ _ (by omega), read_write_other _ _ (by omega),
    read_write_other _ _ (by omega)]

/-- A word read after a word write to the same address gives the word written. -/
theorem Memory.readWord_writeWord_same {m : Memory} (a : Nat) (w : Word) (h : m.wf = true) :
    (m.writeWord a w).readWord a = w := by
  have h1 := write_wf a (w.extractLsb' 0 8) h
  have h2 := write_wf (a + 1) (w.extractLsb' 8 8) h1
  have h3 := write_wf (a + 2) (w.extractLsb' 16 8) h2
  unfold Memory.readWord Memory.writeWord
  rw [read_write_same (a + 3) _ h3, read_write_other _ (c := a + 2) _ (by omega), read_write_same (a + 2) _ h2,
    read_write_other _ (c := a + 1) _ (by omega), read_write_other _ (c := a + 1) _ (by omega),
    read_write_same (a + 1) _ h1, read_write_other _ (c := a) _ (by omega), read_write_other _ (c := a) _ (by omega),
    read_write_other _ (c := a) _ (by omega), read_write_same a _ h]
  ext i hi
  simp only [BitVec.getElem_append, BitVec.getElem_extractLsb']
  split
  · simp [BitVec.getLsbD_eq_getElem hi]
  · split
    · rw [show 8 + (i - 8) = i by omega, BitVec.getLsbD_eq_getElem hi]
    · split
      · rw [show 16 + (i - 8 - 8) = i by omega, BitVec.getLsbD_eq_getElem hi]
      · rw [show 24 + (i - 8 - 8 - 8) = i by omega, BitVec.getLsbD_eq_getElem hi]

/-- A word write leaves every word that shares no byte with it as it was. -/
theorem Memory.readWord_writeWord_other (m : Memory) {a c : Nat} (w : Word) (h : c + 3 < a ∨ a + 3 < c) :
    (m.writeWord a w).readWord c = m.readWord c := by
  unfold Memory.readWord
  rw [read_writeWord_other m w (by omega), read_writeWord_other m w (by omega), read_writeWord_other m w (by omega),
    read_writeWord_other m w (by omega)]

/-- A RAM write keeps the canonical form. -/
theorem memWrite_wf {m : Memory} (sp : Space) (i : Nat) (w : Word) (h : m.wf = true) : (memWrite m sp i w).wf = true :=
  Memory.writeWord_wf _ _ h

/-- A RAM word reads as the word last written to it. -/
theorem memRead_memWrite_same {m : Memory} (sp : Space) (i : Nat) (w : Word) (h : m.wf = true) :
    memRead (memWrite m sp i w) sp i = w := Memory.readWord_writeWord_same _ _ h

/-- A RAM write leaves every other word of that RAM as it was. -/
theorem memRead_memWrite_other (m : Memory) (sp : Space) {i j : Nat} (w : Word) (h : j ≠ i) :
    memRead (memWrite m sp i w) sp j = memRead m sp j := by
  apply Memory.readWord_writeWord_other
  cases sp <;> simp only [wordAddr] <;> omega

/-- A write to VIS leaves DLY as it was. -/
theorem memRead_dly_memWrite_vis (m : Memory) {i : Nat} (j : Nat) (w : Word) (h : i < 0xE000) :
    memRead (memWrite m .vis i w) .dly j = memRead m .dly j := by
  apply Memory.readWord_writeWord_other
  simp only [wordAddr]
  omega

/-- A write to DLY leaves VIS as it was. -/
theorem memRead_vis_memWrite_dly (m : Memory) (i : Nat) {j : Nat} (w : Word) (h : j < 0xE000) :
    memRead (memWrite m .dly i w) .vis j = memRead m .vis j := by
  apply Memory.readWord_writeWord_other
  simp only [wordAddr]
  omega

/-- The memory after reset is in canonical form. -/
theorem resetOf_mem_wf (P : Params) : (State.resetOf P).mem.wf = true := rfl

end Sys2Proof.Machine
end

