-- ==== Sys2Proof/Laws/State.lean ====
section
/-!
SUPPORT. One lemma per field per named update of the state, so that no proof unfolds a record update.
-/

namespace Sys2Proof.Machine

/-! ## withHost -/

@[simp] theorem withHost_params (hs : List HostInput) (s : State) : (withHost hs s).params = s.params := rfl
@[simp] theorem withHost_voices (hs : List HostInput) (s : State) : (withHost hs s).voices = s.voices := rfl
@[simp] theorem withHost_waveSel (hs : List HostInput) (s : State) : (withHost hs s).waveSel = s.waveSel := rfl
@[simp] theorem withHost_layerSel (hs : List HostInput) (s : State) : (withHost hs s).layerSel = s.layerSel := rfl
@[simp] theorem withHost_queue (hs : List HostInput) (s : State) : (withHost hs s).queue = s.queue := rfl
@[simp] theorem withHost_mem (hs : List HostInput) (s : State) : (withHost hs s).mem = s.mem := rfl
@[simp] theorem withHost_delayRd (hs : List HostInput) (s : State) : (withHost hs s).delayRd = s.delayRd := rfl
@[simp] theorem withHost_delayWr (hs : List HostInput) (s : State) : (withHost hs s).delayWr = s.delayWr := rfl
@[simp] theorem withHost_dlenDirty (hs : List HostInput) (s : State) : (withHost hs s).dlenDirty = s.dlenDirty := rfl
@[simp] theorem withHost_visWr (hs : List HostInput) (s : State) : (withHost hs s).visWr = s.visWr := rfl
@[simp] theorem withHost_pend (hs : List HostInput) (s : State) : (withHost hs s).pend = s.pend := rfl
@[simp] theorem withHost_active (hs : List HostInput) (s : State) : (withHost hs s).active = s.active := rfl
@[simp] theorem withHost_run (hs : List HostInput) (s : State) : (withHost hs s).run = s.run := rfl
@[simp] theorem withHost_cfgErr (hs : List HostInput) (s : State) : (withHost hs s).cfgErr = s.cfgErr := rfl
@[simp] theorem withHost_busErr (hs : List HostInput) (s : State) : (withHost hs s).busErr = s.busErr := rfl
@[simp] theorem withHost_renderErr (hs : List HostInput) (s : State) : (withHost hs s).renderErr = s.renderErr := rfl
@[simp] theorem withHost_stopPending (hs : List HostInput) (s : State) : (withHost hs s).stopPending = s.stopPending := rfl
@[simp] theorem withHost_lastErr (hs : List HostInput) (s : State) : (withHost hs s).lastErr = s.lastErr := rfl
@[simp] theorem withHost_dropCount (hs : List HostInput) (s : State) : (withHost hs s).dropCount = s.dropCount := rfl
@[simp] theorem withHost_ignCount (hs : List HostInput) (s : State) : (withHost hs s).ignCount = s.ignCount := rfl
@[simp] theorem withHost_qovfCount (hs : List HostInput) (s : State) : (withHost hs s).qovfCount = s.qovfCount := rfl
@[simp] theorem withHost_frameCount (hs : List HostInput) (s : State) : (withHost hs s).frameCount = s.frameCount := rfl
@[simp] theorem withHost_framesLeft (hs : List HostInput) (s : State) : (withHost hs s).framesLeft = s.framesLeft := rfl
@[simp] theorem withHost_frameIdx (hs : List HostInput) (s : State) : (withHost hs s).frameIdx = s.frameIdx := rfl
@[simp] theorem withHost_host (hs : List HostInput) (s : State) : (withHost hs s).host = hs := rfl
@[simp] theorem withHost_out (hs : List HostInput) (s : State) : (withHost hs s).out = s.out := rfl
@[simp] theorem withHost_rdata (hs : List HostInput) (s : State) : (withHost hs s).rdata = s.rdata := rfl
@[simp] theorem withHost_draws (hs : List HostInput) (s : State) : (withHost hs s).draws = s.draws := rfl

/-! ## returnWord -/

@[simp] theorem returnWord_params (w : Word) (s : State) : (returnWord w s).params = s.params := rfl
@[simp] theorem returnWord_voices (w : Word) (s : State) : (returnWord w s).voices = s.voices := rfl
@[simp] theorem returnWord_waveSel (w : Word) (s : State) : (returnWord w s).waveSel = s.waveSel := rfl
@[simp] theorem returnWord_layerSel (w : Word) (s : State) : (returnWord w s).layerSel = s.layerSel := rfl
@[simp] theorem returnWord_queue (w : Word) (s : State) : (returnWord w s).queue = s.queue := rfl
@[simp] theorem returnWord_mem (w : Word) (s : State) : (returnWord w s).mem = s.mem := rfl
@[simp] theorem returnWord_delayRd (w : Word) (s : State) : (returnWord w s).delayRd = s.delayRd := rfl
@[simp] theorem returnWord_delayWr (w : Word) (s : State) : (returnWord w s).delayWr = s.delayWr := rfl
@[simp] theorem returnWord_dlenDirty (w : Word) (s : State) : (returnWord w s).dlenDirty = s.dlenDirty := rfl
@[simp] theorem returnWord_visWr (w : Word) (s : State) : (returnWord w s).visWr = s.visWr := rfl
@[simp] theorem returnWord_pend (w : Word) (s : State) : (returnWord w s).pend = s.pend := rfl
@[simp] theorem returnWord_active (w : Word) (s : State) : (returnWord w s).active = s.active := rfl
@[simp] theorem returnWord_run (w : Word) (s : State) : (returnWord w s).run = s.run := rfl
@[simp] theorem returnWord_cfgErr (w : Word) (s : State) : (returnWord w s).cfgErr = s.cfgErr := rfl
@[simp] theorem returnWord_busErr (w : Word) (s : State) : (returnWord w s).busErr = s.busErr := rfl
@[simp] theorem returnWord_renderErr (w : Word) (s : State) : (returnWord w s).renderErr = s.renderErr := rfl
@[simp] theorem returnWord_stopPending (w : Word) (s : State) : (returnWord w s).stopPending = s.stopPending := rfl
@[simp] theorem returnWord_lastErr (w : Word) (s : State) : (returnWord w s).lastErr = s.lastErr := rfl
@[simp] theorem returnWord_dropCount (w : Word) (s : State) : (returnWord w s).dropCount = s.dropCount := rfl
@[simp] theorem returnWord_ignCount (w : Word) (s : State) : (returnWord w s).ignCount = s.ignCount := rfl
@[simp] theorem returnWord_qovfCount (w : Word) (s : State) : (returnWord w s).qovfCount = s.qovfCount := rfl
@[simp] theorem returnWord_frameCount (w : Word) (s : State) : (returnWord w s).frameCount = s.frameCount := rfl
@[simp] theorem returnWord_framesLeft (w : Word) (s : State) : (returnWord w s).framesLeft = s.framesLeft := rfl
@[simp] theorem returnWord_frameIdx (w : Word) (s : State) : (returnWord w s).frameIdx = s.frameIdx := rfl
@[simp] theorem returnWord_host (w : Word) (s : State) : (returnWord w s).host = s.host := rfl
@[simp] theorem returnWord_out (w : Word) (s : State) : (returnWord w s).out = s.out := rfl
@[simp] theorem returnWord_rdata (w : Word) (s : State) : (returnWord w s).rdata = w := rfl
@[simp] theorem returnWord_draws (w : Word) (s : State) : (returnWord w s).draws = s.draws := rfl

/-! ## returnDraw -/

@[simp] theorem returnDraw_params (s : State) : (returnDraw s).params = s.params := rfl
@[simp] theorem returnDraw_voices (s : State) : (returnDraw s).voices = s.voices := rfl
@[simp] theorem returnDraw_waveSel (s : State) : (returnDraw s).waveSel = s.waveSel := rfl
@[simp] theorem returnDraw_layerSel (s : State) : (returnDraw s).layerSel = s.layerSel := rfl
@[simp] theorem returnDraw_queue (s : State) : (returnDraw s).queue = s.queue := rfl
@[simp] theorem returnDraw_mem (s : State) : (returnDraw s).mem = s.mem := rfl
@[simp] theorem returnDraw_delayRd (s : State) : (returnDraw s).delayRd = s.delayRd := rfl
@[simp] theorem returnDraw_delayWr (s : State) : (returnDraw s).delayWr = s.delayWr := rfl
@[simp] theorem returnDraw_dlenDirty (s : State) : (returnDraw s).dlenDirty = s.dlenDirty := rfl
@[simp] theorem returnDraw_visWr (s : State) : (returnDraw s).visWr = s.visWr := rfl
@[simp] theorem returnDraw_pend (s : State) : (returnDraw s).pend = s.pend := rfl
@[simp] theorem returnDraw_active (s : State) : (returnDraw s).active = s.active := rfl
@[simp] theorem returnDraw_run (s : State) : (returnDraw s).run = s.run := rfl
@[simp] theorem returnDraw_cfgErr (s : State) : (returnDraw s).cfgErr = s.cfgErr := rfl
@[simp] theorem returnDraw_busErr (s : State) : (returnDraw s).busErr = s.busErr := rfl
@[simp] theorem returnDraw_renderErr (s : State) : (returnDraw s).renderErr = s.renderErr := rfl
@[simp] theorem returnDraw_stopPending (s : State) : (returnDraw s).stopPending = s.stopPending := rfl
@[simp] theorem returnDraw_lastErr (s : State) : (returnDraw s).lastErr = s.lastErr := rfl
@[simp] theorem returnDraw_dropCount (s : State) : (returnDraw s).dropCount = s.dropCount := rfl
@[simp] theorem returnDraw_ignCount (s : State) : (returnDraw s).ignCount = s.ignCount := rfl
@[simp] theorem returnDraw_qovfCount (s : State) : (returnDraw s).qovfCount = s.qovfCount := rfl
@[simp] theorem returnDraw_frameCount (s : State) : (returnDraw s).frameCount = s.frameCount := rfl
@[simp] theorem returnDraw_framesLeft (s : State) : (returnDraw s).framesLeft = s.framesLeft := rfl
@[simp] theorem returnDraw_frameIdx (s : State) : (returnDraw s).frameIdx = s.frameIdx := rfl
@[simp] theorem returnDraw_host (s : State) : (returnDraw s).host = s.host := rfl
@[simp] theorem returnDraw_out (s : State) : (returnDraw s).out = s.out := rfl
@[simp] theorem returnDraw_rdata (s : State) : (returnDraw s).rdata = Config.readDraw s.draws := rfl
@[simp] theorem returnDraw_draws (s : State) : (returnDraw s).draws = s.draws + 1 := rfl

/-! ## raise -/

@[simp] theorem raise_params (e : ErrKind) (s : State) : (raise e s).params = s.params := rfl
@[simp] theorem raise_voices (e : ErrKind) (s : State) : (raise e s).voices = s.voices := rfl
@[simp] theorem raise_waveSel (e : ErrKind) (s : State) : (raise e s).waveSel = s.waveSel := rfl
@[simp] theorem raise_layerSel (e : ErrKind) (s : State) : (raise e s).layerSel = s.layerSel := rfl
@[simp] theorem raise_queue (e : ErrKind) (s : State) : (raise e s).queue = s.queue := rfl
@[simp] theorem raise_mem (e : ErrKind) (s : State) : (raise e s).mem = s.mem := rfl
@[simp] theorem raise_delayRd (e : ErrKind) (s : State) : (raise e s).delayRd = s.delayRd := rfl
@[simp] theorem raise_delayWr (e : ErrKind) (s : State) : (raise e s).delayWr = s.delayWr := rfl
@[simp] theorem raise_dlenDirty (e : ErrKind) (s : State) : (raise e s).dlenDirty = s.dlenDirty := rfl
@[simp] theorem raise_visWr (e : ErrKind) (s : State) : (raise e s).visWr = s.visWr := rfl
@[simp] theorem raise_pend (e : ErrKind) (s : State) : (raise e s).pend = s.pend := rfl
@[simp] theorem raise_active (e : ErrKind) (s : State) : (raise e s).active = s.active := rfl
@[simp] theorem raise_run (e : ErrKind) (s : State) : (raise e s).run = s.run := rfl
@[simp] theorem raise_cfgErr (e : ErrKind) (s : State) : (raise e s).cfgErr = (s.cfgErr || e.setsCfgErr) := rfl
@[simp] theorem raise_busErr (e : ErrKind) (s : State) : (raise e s).busErr = (s.busErr || e.setsBusErr) := rfl
@[simp] theorem raise_renderErr (e : ErrKind) (s : State) : (raise e s).renderErr = (s.renderErr || e.setsRenderErr) := rfl
@[simp] theorem raise_stopPending (e : ErrKind) (s : State) : (raise e s).stopPending = s.stopPending := rfl
@[simp] theorem raise_lastErr (e : ErrKind) (s : State) : (raise e s).lastErr = e.code := rfl
@[simp] theorem raise_dropCount (e : ErrKind) (s : State) : (raise e s).dropCount = s.dropCount := rfl
@[simp] theorem raise_ignCount (e : ErrKind) (s : State) : (raise e s).ignCount = s.ignCount := rfl
@[simp] theorem raise_qovfCount (e : ErrKind) (s : State) : (raise e s).qovfCount = s.qovfCount := rfl
@[simp] theorem raise_frameCount (e : ErrKind) (s : State) : (raise e s).frameCount = s.frameCount := rfl
@[simp] theorem raise_framesLeft (e : ErrKind) (s : State) : (raise e s).framesLeft = s.framesLeft := rfl
@[simp] theorem raise_frameIdx (e : ErrKind) (s : State) : (raise e s).frameIdx = s.frameIdx := rfl
@[simp] theorem raise_host (e : ErrKind) (s : State) : (raise e s).host = s.host := rfl
@[simp] theorem raise_out (e : ErrKind) (s : State) : (raise e s).out = s.out := rfl
@[simp] theorem raise_rdata (e : ErrKind) (s : State) : (raise e s).rdata = s.rdata := rfl
@[simp] theorem raise_draws (e : ErrKind) (s : State) : (raise e s).draws = s.draws := rfl

/-! ## withPend -/

@[simp] theorem withPend_params (R : Regs) (s : State) : (withPend R s).params = s.params := rfl
@[simp] theorem withPend_voices (R : Regs) (s : State) : (withPend R s).voices = s.voices := rfl
@[simp] theorem withPend_waveSel (R : Regs) (s : State) : (withPend R s).waveSel = s.waveSel := rfl
@[simp] theorem withPend_layerSel (R : Regs) (s : State) : (withPend R s).layerSel = s.layerSel := rfl
@[simp] theorem withPend_queue (R : Regs) (s : State) : (withPend R s).queue = s.queue := rfl
@[simp] theorem withPend_mem (R : Regs) (s : State) : (withPend R s).mem = s.mem := rfl
@[simp] theorem withPend_delayRd (R : Regs) (s : State) : (withPend R s).delayRd = s.delayRd := rfl
@[simp] theorem withPend_delayWr (R : Regs) (s : State) : (withPend R s).delayWr = s.delayWr := rfl
@[simp] theorem withPend_dlenDirty (R : Regs) (s : State) : (withPend R s).dlenDirty = s.dlenDirty := rfl
@[simp] theorem withPend_visWr (R : Regs) (s : State) : (withPend R s).visWr = s.visWr := rfl
@[simp] theorem withPend_pend (R : Regs) (s : State) : (withPend R s).pend = R := rfl
@[simp] theorem withPend_active (R : Regs) (s : State) : (withPend R s).active = s.active := rfl
@[simp] theorem withPend_run (R : Regs) (s : State) : (withPend R s).run = s.run := rfl
@[simp] theorem withPend_cfgErr (R : Regs) (s : State) : (withPend R s).cfgErr = s.cfgErr := rfl
@[simp] theorem withPend_busErr (R : Regs) (s : State) : (withPend R s).busErr = s.busErr := rfl
@[simp] theorem withPend_renderErr (R : Regs) (s : State) : (withPend R s).renderErr = s.renderErr := rfl
@[simp] theorem withPend_stopPending (R : Regs) (s : State) : (withPend R s).stopPending = s.stopPending := rfl
@[simp] theorem withPend_lastErr (R : Regs) (s : State) : (withPend R s).lastErr = s.lastErr := rfl
@[simp] theorem withPend_dropCount (R : Regs) (s : State) : (withPend R s).dropCount = s.dropCount := rfl
@[simp] theorem withPend_ignCount (R : Regs) (s : State) : (withPend R s).ignCount = s.ignCount := rfl
@[simp] theorem withPend_qovfCount (R : Regs) (s : State) : (withPend R s).qovfCount = s.qovfCount := rfl
@[simp] theorem withPend_frameCount (R : Regs) (s : State) : (withPend R s).frameCount = s.frameCount := rfl
@[simp] theorem withPend_framesLeft (R : Regs) (s : State) : (withPend R s).framesLeft = s.framesLeft := rfl
@[simp] theorem withPend_frameIdx (R : Regs) (s : State) : (withPend R s).frameIdx = s.frameIdx := rfl
@[simp] theorem withPend_host (R : Regs) (s : State) : (withPend R s).host = s.host := rfl
@[simp] theorem withPend_out (R : Regs) (s : State) : (withPend R s).out = s.out := rfl
@[simp] theorem withPend_rdata (R : Regs) (s : State) : (withPend R s).rdata = s.rdata := rfl
@[simp] theorem withPend_draws (R : Regs) (s : State) : (withPend R s).draws = s.draws := rfl

/-! ## withQueue -/

@[simp] theorem withQueue_params (q : List EventWord) (s : State) : (withQueue q s).params = s.params := rfl
@[simp] theorem withQueue_voices (q : List EventWord) (s : State) : (withQueue q s).voices = s.voices := rfl
@[simp] theorem withQueue_waveSel (q : List EventWord) (s : State) : (withQueue q s).waveSel = s.waveSel := rfl
@[simp] theorem withQueue_layerSel (q : List EventWord) (s : State) : (withQueue q s).layerSel = s.layerSel := rfl
@[simp] theorem withQueue_queue (q : List EventWord) (s : State) : (withQueue q s).queue = q := rfl
@[simp] theorem withQueue_mem (q : List EventWord) (s : State) : (withQueue q s).mem = s.mem := rfl
@[simp] theorem withQueue_delayRd (q : List EventWord) (s : State) : (withQueue q s).delayRd = s.delayRd := rfl
@[simp] theorem withQueue_delayWr (q : List EventWord) (s : State) : (withQueue q s).delayWr = s.delayWr := rfl
@[simp] theorem withQueue_dlenDirty (q : List EventWord) (s : State) : (withQueue q s).dlenDirty = s.dlenDirty := rfl
@[simp] theorem withQueue_visWr (q : List EventWord) (s : State) : (withQueue q s).visWr = s.visWr := rfl
@[simp] theorem withQueue_pend (q : List EventWord) (s : State) : (withQueue q s).pend = s.pend := rfl
@[simp] theorem withQueue_active (q : List EventWord) (s : State) : (withQueue q s).active = s.active := rfl
@[simp] theorem withQueue_run (q : List EventWord) (s : State) : (withQueue q s).run = s.run := rfl
@[simp] theorem withQueue_cfgErr (q : List EventWord) (s : State) : (withQueue q s).cfgErr = s.cfgErr := rfl
@[simp] theorem withQueue_busErr (q : List EventWord) (s : State) : (withQueue q s).busErr = s.busErr := rfl
@[simp] theorem withQueue_renderErr (q : List EventWord) (s : State) : (withQueue q s).renderErr = s.renderErr := rfl
@[simp] theorem withQueue_stopPending (q : List EventWord) (s : State) : (withQueue q s).stopPending = s.stopPending := rfl
@[simp] theorem withQueue_lastErr (q : List EventWord) (s : State) : (withQueue q s).lastErr = s.lastErr := rfl
@[simp] theorem withQueue_dropCount (q : List EventWord) (s : State) : (withQueue q s).dropCount = s.dropCount := rfl
@[simp] theorem withQueue_ignCount (q : List EventWord) (s : State) : (withQueue q s).ignCount = s.ignCount := rfl
@[simp] theorem withQueue_qovfCount (q : List EventWord) (s : State) : (withQueue q s).qovfCount = s.qovfCount := rfl
@[simp] theorem withQueue_frameCount (q : List EventWord) (s : State) : (withQueue q s).frameCount = s.frameCount := rfl
@[simp] theorem withQueue_framesLeft (q : List EventWord) (s : State) : (withQueue q s).framesLeft = s.framesLeft := rfl
@[simp] theorem withQueue_frameIdx (q : List EventWord) (s : State) : (withQueue q s).frameIdx = s.frameIdx := rfl
@[simp] theorem withQueue_host (q : List EventWord) (s : State) : (withQueue q s).host = s.host := rfl
@[simp] theorem withQueue_out (q : List EventWord) (s : State) : (withQueue q s).out = s.out := rfl
@[simp] theorem withQueue_rdata (q : List EventWord) (s : State) : (withQueue q s).rdata = s.rdata := rfl
@[simp] theorem withQueue_draws (q : List EventWord) (s : State) : (withQueue q s).draws = s.draws := rfl

/-! ## withVoices -/

@[simp] theorem withVoices_params (vs : List Voice) (s : State) : (withVoices vs s).params = s.params := rfl
@[simp] theorem withVoices_voices (vs : List Voice) (s : State) : (withVoices vs s).voices = vs := rfl
@[simp] theorem withVoices_waveSel (vs : List Voice) (s : State) : (withVoices vs s).waveSel = s.waveSel := rfl
@[simp] theorem withVoices_layerSel (vs : List Voice) (s : State) : (withVoices vs s).layerSel = s.layerSel := rfl
@[simp] theorem withVoices_queue (vs : List Voice) (s : State) : (withVoices vs s).queue = s.queue := rfl
@[simp] theorem withVoices_mem (vs : List Voice) (s : State) : (withVoices vs s).mem = s.mem := rfl
@[simp] theorem withVoices_delayRd (vs : List Voice) (s : State) : (withVoices vs s).delayRd = s.delayRd := rfl
@[simp] theorem withVoices_delayWr (vs : List Voice) (s : State) : (withVoices vs s).delayWr = s.delayWr := rfl
@[simp] theorem withVoices_dlenDirty (vs : List Voice) (s : State) : (withVoices vs s).dlenDirty = s.dlenDirty := rfl
@[simp] theorem withVoices_visWr (vs : List Voice) (s : State) : (withVoices vs s).visWr = s.visWr := rfl
@[simp] theorem withVoices_pend (vs : List Voice) (s : State) : (withVoices vs s).pend = s.pend := rfl
@[simp] theorem withVoices_active (vs : List Voice) (s : State) : (withVoices vs s).active = s.active := rfl
@[simp] theorem withVoices_run (vs : List Voice) (s : State) : (withVoices vs s).run = s.run := rfl
@[simp] theorem withVoices_cfgErr (vs : List Voice) (s : State) : (withVoices vs s).cfgErr = s.cfgErr := rfl
@[simp] theorem withVoices_busErr (vs : List Voice) (s : State) : (withVoices vs s).busErr = s.busErr := rfl
@[simp] theorem withVoices_renderErr (vs : List Voice) (s : State) : (withVoices vs s).renderErr = s.renderErr := rfl
@[simp] theorem withVoices_stopPending (vs : List Voice) (s : State) : (withVoices vs s).stopPending = s.stopPending := rfl
@[simp] theorem withVoices_lastErr (vs : List Voice) (s : State) : (withVoices vs s).lastErr = s.lastErr := rfl
@[simp] theorem withVoices_dropCount (vs : List Voice) (s : State) : (withVoices vs s).dropCount = s.dropCount := rfl
@[simp] theorem withVoices_ignCount (vs : List Voice) (s : State) : (withVoices vs s).ignCount = s.ignCount := rfl
@[simp] theorem withVoices_qovfCount (vs : List Voice) (s : State) : (withVoices vs s).qovfCount = s.qovfCount := rfl
@[simp] theorem withVoices_frameCount (vs : List Voice) (s : State) : (withVoices vs s).frameCount = s.frameCount := rfl
@[simp] theorem withVoices_framesLeft (vs : List Voice) (s : State) : (withVoices vs s).framesLeft = s.framesLeft := rfl
@[simp] theorem withVoices_frameIdx (vs : List Voice) (s : State) : (withVoices vs s).frameIdx = s.frameIdx := rfl
@[simp] theorem withVoices_host (vs : List Voice) (s : State) : (withVoices vs s).host = s.host := rfl
@[simp] theorem withVoices_out (vs : List Voice) (s : State) : (withVoices vs s).out = s.out := rfl
@[simp] theorem withVoices_rdata (vs : List Voice) (s : State) : (withVoices vs s).rdata = s.rdata := rfl
@[simp] theorem withVoices_draws (vs : List Voice) (s : State) : (withVoices vs s).draws = s.draws := rfl

/-! ## setVoice -/

@[simp] theorem setVoice_params (v : Nat) (x : Voice) (s : State) : (setVoice v x s).params = s.params := rfl
@[simp] theorem setVoice_voices (v : Nat) (x : Voice) (s : State) : (setVoice v x s).voices = s.voices.set v x := rfl
@[simp] theorem setVoice_waveSel (v : Nat) (x : Voice) (s : State) : (setVoice v x s).waveSel = s.waveSel := rfl
@[simp] theorem setVoice_layerSel (v : Nat) (x : Voice) (s : State) : (setVoice v x s).layerSel = s.layerSel := rfl
@[simp] theorem setVoice_queue (v : Nat) (x : Voice) (s : State) : (setVoice v x s).queue = s.queue := rfl
@[simp] theorem setVoice_mem (v : Nat) (x : Voice) (s : State) : (setVoice v x s).mem = s.mem := rfl
@[simp] theorem setVoice_delayRd (v : Nat) (x : Voice) (s : State) : (setVoice v x s).delayRd = s.delayRd := rfl
@[simp] theorem setVoice_delayWr (v : Nat) (x : Voice) (s : State) : (setVoice v x s).delayWr = s.delayWr := rfl
@[simp] theorem setVoice_dlenDirty (v : Nat) (x : Voice) (s : State) : (setVoice v x s).dlenDirty = s.dlenDirty := rfl
@[simp] theorem setVoice_visWr (v : Nat) (x : Voice) (s : State) : (setVoice v x s).visWr = s.visWr := rfl
@[simp] theorem setVoice_pend (v : Nat) (x : Voice) (s : State) : (setVoice v x s).pend = s.pend := rfl
@[simp] theorem setVoice_active (v : Nat) (x : Voice) (s : State) : (setVoice v x s).active = s.active := rfl
@[simp] theorem setVoice_run (v : Nat) (x : Voice) (s : State) : (setVoice v x s).run = s.run := rfl
@[simp] theorem setVoice_cfgErr (v : Nat) (x : Voice) (s : State) : (setVoice v x s).cfgErr = s.cfgErr := rfl
@[simp] theorem setVoice_busErr (v : Nat) (x : Voice) (s : State) : (setVoice v x s).busErr = s.busErr := rfl
@[simp] theorem setVoice_renderErr (v : Nat) (x : Voice) (s : State) : (setVoice v x s).renderErr = s.renderErr := rfl
@[simp] theorem setVoice_stopPending (v : Nat) (x : Voice) (s : State) : (setVoice v x s).stopPending = s.stopPending := rfl
@[simp] theorem setVoice_lastErr (v : Nat) (x : Voice) (s : State) : (setVoice v x s).lastErr = s.lastErr := rfl
@[simp] theorem setVoice_dropCount (v : Nat) (x : Voice) (s : State) : (setVoice v x s).dropCount = s.dropCount := rfl
@[simp] theorem setVoice_ignCount (v : Nat) (x : Voice) (s : State) : (setVoice v x s).ignCount = s.ignCount := rfl
@[simp] theorem setVoice_qovfCount (v : Nat) (x : Voice) (s : State) : (setVoice v x s).qovfCount = s.qovfCount := rfl
@[simp] theorem setVoice_frameCount (v : Nat) (x : Voice) (s : State) : (setVoice v x s).frameCount = s.frameCount := rfl
@[simp] theorem setVoice_framesLeft (v : Nat) (x : Voice) (s : State) : (setVoice v x s).framesLeft = s.framesLeft := rfl
@[simp] theorem setVoice_frameIdx (v : Nat) (x : Voice) (s : State) : (setVoice v x s).frameIdx = s.frameIdx := rfl
@[simp] theorem setVoice_host (v : Nat) (x : Voice) (s : State) : (setVoice v x s).host = s.host := rfl
@[simp] theorem setVoice_out (v : Nat) (x : Voice) (s : State) : (setVoice v x s).out = s.out := rfl
@[simp] theorem setVoice_rdata (v : Nat) (x : Voice) (s : State) : (setVoice v x s).rdata = s.rdata := rfl
@[simp] theorem setVoice_draws (v : Nat) (x : Voice) (s : State) : (setVoice v x s).draws = s.draws := rfl

/-! ## countDrop -/

@[simp] theorem countDrop_params (s : State) : (countDrop s).params = s.params := rfl
@[simp] theorem countDrop_voices (s : State) : (countDrop s).voices = s.voices := rfl
@[simp] theorem countDrop_waveSel (s : State) : (countDrop s).waveSel = s.waveSel := rfl
@[simp] theorem countDrop_layerSel (s : State) : (countDrop s).layerSel = s.layerSel := rfl
@[simp] theorem countDrop_queue (s : State) : (countDrop s).queue = s.queue := rfl
@[simp] theorem countDrop_mem (s : State) : (countDrop s).mem = s.mem := rfl
@[simp] theorem countDrop_delayRd (s : State) : (countDrop s).delayRd = s.delayRd := rfl
@[simp] theorem countDrop_delayWr (s : State) : (countDrop s).delayWr = s.delayWr := rfl
@[simp] theorem countDrop_dlenDirty (s : State) : (countDrop s).dlenDirty = s.dlenDirty := rfl
@[simp] theorem countDrop_visWr (s : State) : (countDrop s).visWr = s.visWr := rfl
@[simp] theorem countDrop_pend (s : State) : (countDrop s).pend = s.pend := rfl
@[simp] theorem countDrop_active (s : State) : (countDrop s).active = s.active := rfl
@[simp] theorem countDrop_run (s : State) : (countDrop s).run = s.run := rfl
@[simp] theorem countDrop_cfgErr (s : State) : (countDrop s).cfgErr = s.cfgErr := rfl
@[simp] theorem countDrop_busErr (s : State) : (countDrop s).busErr = s.busErr := rfl
@[simp] theorem countDrop_renderErr (s : State) : (countDrop s).renderErr = s.renderErr := rfl
@[simp] theorem countDrop_stopPending (s : State) : (countDrop s).stopPending = s.stopPending := rfl
@[simp] theorem countDrop_lastErr (s : State) : (countDrop s).lastErr = s.lastErr := rfl
@[simp] theorem countDrop_dropCount (s : State) : (countDrop s).dropCount = s.dropCount + 1 := rfl
@[simp] theorem countDrop_ignCount (s : State) : (countDrop s).ignCount = s.ignCount := rfl
@[simp] theorem countDrop_qovfCount (s : State) : (countDrop s).qovfCount = s.qovfCount := rfl
@[simp] theorem countDrop_frameCount (s : State) : (countDrop s).frameCount = s.frameCount := rfl
@[simp] theorem countDrop_framesLeft (s : State) : (countDrop s).framesLeft = s.framesLeft := rfl
@[simp] theorem countDrop_frameIdx (s : State) : (countDrop s).frameIdx = s.frameIdx := rfl
@[simp] theorem countDrop_host (s : State) : (countDrop s).host = s.host := rfl
@[simp] theorem countDrop_out (s : State) : (countDrop s).out = s.out := rfl
@[simp] theorem countDrop_rdata (s : State) : (countDrop s).rdata = s.rdata := rfl
@[simp] theorem countDrop_draws (s : State) : (countDrop s).draws = s.draws := rfl

/-! ## countIgn -/

@[simp] theorem countIgn_params (s : State) : (countIgn s).params = s.params := rfl
@[simp] theorem countIgn_voices (s : State) : (countIgn s).voices = s.voices := rfl
@[simp] theorem countIgn_waveSel (s : State) : (countIgn s).waveSel = s.waveSel := rfl
@[simp] theorem countIgn_layerSel (s : State) : (countIgn s).layerSel = s.layerSel := rfl
@[simp] theorem countIgn_queue (s : State) : (countIgn s).queue = s.queue := rfl
@[simp] theorem countIgn_mem (s : State) : (countIgn s).mem = s.mem := rfl
@[simp] theorem countIgn_delayRd (s : State) : (countIgn s).delayRd = s.delayRd := rfl
@[simp] theorem countIgn_delayWr (s : State) : (countIgn s).delayWr = s.delayWr := rfl
@[simp] theorem countIgn_dlenDirty (s : State) : (countIgn s).dlenDirty = s.dlenDirty := rfl
@[simp] theorem countIgn_visWr (s : State) : (countIgn s).visWr = s.visWr := rfl
@[simp] theorem countIgn_pend (s : State) : (countIgn s).pend = s.pend := rfl
@[simp] theorem countIgn_active (s : State) : (countIgn s).active = s.active := rfl
@[simp] theorem countIgn_run (s : State) : (countIgn s).run = s.run := rfl
@[simp] theorem countIgn_cfgErr (s : State) : (countIgn s).cfgErr = s.cfgErr := rfl
@[simp] theorem countIgn_busErr (s : State) : (countIgn s).busErr = s.busErr := rfl
@[simp] theorem countIgn_renderErr (s : State) : (countIgn s).renderErr = s.renderErr := rfl
@[simp] theorem countIgn_stopPending (s : State) : (countIgn s).stopPending = s.stopPending := rfl
@[simp] theorem countIgn_lastErr (s : State) : (countIgn s).lastErr = s.lastErr := rfl
@[simp] theorem countIgn_dropCount (s : State) : (countIgn s).dropCount = s.dropCount := rfl
@[simp] theorem countIgn_ignCount (s : State) : (countIgn s).ignCount = s.ignCount + 1 := rfl
@[simp] theorem countIgn_qovfCount (s : State) : (countIgn s).qovfCount = s.qovfCount := rfl
@[simp] theorem countIgn_frameCount (s : State) : (countIgn s).frameCount = s.frameCount := rfl
@[simp] theorem countIgn_framesLeft (s : State) : (countIgn s).framesLeft = s.framesLeft := rfl
@[simp] theorem countIgn_frameIdx (s : State) : (countIgn s).frameIdx = s.frameIdx := rfl
@[simp] theorem countIgn_host (s : State) : (countIgn s).host = s.host := rfl
@[simp] theorem countIgn_out (s : State) : (countIgn s).out = s.out := rfl
@[simp] theorem countIgn_rdata (s : State) : (countIgn s).rdata = s.rdata := rfl
@[simp] theorem countIgn_draws (s : State) : (countIgn s).draws = s.draws := rfl

/-! ## countQovf -/

@[simp] theorem countQovf_params (s : State) : (countQovf s).params = s.params := rfl
@[simp] theorem countQovf_voices (s : State) : (countQovf s).voices = s.voices := rfl
@[simp] theorem countQovf_waveSel (s : State) : (countQovf s).waveSel = s.waveSel := rfl
@[simp] theorem countQovf_layerSel (s : State) : (countQovf s).layerSel = s.layerSel := rfl
@[simp] theorem countQovf_queue (s : State) : (countQovf s).queue = s.queue := rfl
@[simp] theorem countQovf_mem (s : State) : (countQovf s).mem = s.mem := rfl
@[simp] theorem countQovf_delayRd (s : State) : (countQovf s).delayRd = s.delayRd := rfl
@[simp] theorem countQovf_delayWr (s : State) : (countQovf s).delayWr = s.delayWr := rfl
@[simp] theorem countQovf_dlenDirty (s : State) : (countQovf s).dlenDirty = s.dlenDirty := rfl
@[simp] theorem countQovf_visWr (s : State) : (countQovf s).visWr = s.visWr := rfl
@[simp] theorem countQovf_pend (s : State) : (countQovf s).pend = s.pend := rfl
@[simp] theorem countQovf_active (s : State) : (countQovf s).active = s.active := rfl
@[simp] theorem countQovf_run (s : State) : (countQovf s).run = s.run := rfl
@[simp] theorem countQovf_cfgErr (s : State) : (countQovf s).cfgErr = s.cfgErr := rfl
@[simp] theorem countQovf_busErr (s : State) : (countQovf s).busErr = s.busErr := rfl
@[simp] theorem countQovf_renderErr (s : State) : (countQovf s).renderErr = s.renderErr := rfl
@[simp] theorem countQovf_stopPending (s : State) : (countQovf s).stopPending = s.stopPending := rfl
@[simp] theorem countQovf_lastErr (s : State) : (countQovf s).lastErr = s.lastErr := rfl
@[simp] theorem countQovf_dropCount (s : State) : (countQovf s).dropCount = s.dropCount := rfl
@[simp] theorem countQovf_ignCount (s : State) : (countQovf s).ignCount = s.ignCount := rfl
@[simp] theorem countQovf_qovfCount (s : State) : (countQovf s).qovfCount = s.qovfCount + 1 := rfl
@[simp] theorem countQovf_frameCount (s : State) : (countQovf s).frameCount = s.frameCount := rfl
@[simp] theorem countQovf_framesLeft (s : State) : (countQovf s).framesLeft = s.framesLeft := rfl
@[simp] theorem countQovf_frameIdx (s : State) : (countQovf s).frameIdx = s.frameIdx := rfl
@[simp] theorem countQovf_host (s : State) : (countQovf s).host = s.host := rfl
@[simp] theorem countQovf_out (s : State) : (countQovf s).out = s.out := rfl
@[simp] theorem countQovf_rdata (s : State) : (countQovf s).rdata = s.rdata := rfl
@[simp] theorem countQovf_draws (s : State) : (countQovf s).draws = s.draws := rfl

/-! ## latch -/

@[simp] theorem latch_params (s : State) : (latch s).params = s.params := rfl
@[simp] theorem latch_voices (s : State) : (latch s).voices = s.voices := rfl
@[simp] theorem latch_waveSel (s : State) : (latch s).waveSel = s.waveSel := rfl
@[simp] theorem latch_layerSel (s : State) : (latch s).layerSel = s.layerSel := rfl
@[simp] theorem latch_queue (s : State) : (latch s).queue = s.queue := rfl
@[simp] theorem latch_mem (s : State) : (latch s).mem = s.mem := rfl
@[simp] theorem latch_delayRd (s : State) : (latch s).delayRd = (if s.dlenDirty then
      (((s.delayWr : Int) - (s.pend.delayLen.toNat : Int)) % (s.params.delayCap : Int)).toNat else s.delayRd) := rfl
@[simp] theorem latch_delayWr (s : State) : (latch s).delayWr = s.delayWr := rfl
@[simp] theorem latch_dlenDirty (s : State) : (latch s).dlenDirty = false := rfl
@[simp] theorem latch_visWr (s : State) : (latch s).visWr = s.visWr := rfl
@[simp] theorem latch_pend (s : State) : (latch s).pend = s.pend := rfl
@[simp] theorem latch_active (s : State) : (latch s).active = s.pend := rfl
@[simp] theorem latch_run (s : State) : (latch s).run = s.run := rfl
@[simp] theorem latch_cfgErr (s : State) : (latch s).cfgErr = s.cfgErr := rfl
@[simp] theorem latch_busErr (s : State) : (latch s).busErr = s.busErr := rfl
@[simp] theorem latch_renderErr (s : State) : (latch s).renderErr = s.renderErr := rfl
@[simp] theorem latch_stopPending (s : State) : (latch s).stopPending = s.stopPending := rfl
@[simp] theorem latch_lastErr (s : State) : (latch s).lastErr = s.lastErr := rfl
@[simp] theorem latch_dropCount (s : State) : (latch s).dropCount = s.dropCount := rfl
@[simp] theorem latch_ignCount (s : State) : (latch s).ignCount = s.ignCount := rfl
@[simp] theorem latch_qovfCount (s : State) : (latch s).qovfCount = s.qovfCount := rfl
@[simp] theorem latch_frameCount (s : State) : (latch s).frameCount = s.frameCount := rfl
@[simp] theorem latch_framesLeft (s : State) : (latch s).framesLeft = s.framesLeft := rfl
@[simp] theorem latch_frameIdx (s : State) : (latch s).frameIdx = s.frameIdx := rfl
@[simp] theorem latch_host (s : State) : (latch s).host = s.host := rfl
@[simp] theorem latch_out (s : State) : (latch s).out = s.out := rfl
@[simp] theorem latch_rdata (s : State) : (latch s).rdata = s.rdata := rfl
@[simp] theorem latch_draws (s : State) : (latch s).draws = s.draws := rfl

/-! ## storeWord -/

@[simp] theorem storeWord_params (sp : Space) (i : Nat) (w : Word) (s : State) : (storeWord sp i w s).params = s.params := rfl
@[simp] theorem storeWord_voices (sp : Space) (i : Nat) (w : Word) (s : State) : (storeWord sp i w s).voices = s.voices := rfl
@[simp] theorem storeWord_waveSel (sp : Space) (i : Nat) (w : Word) (s : State) : (storeWord sp i w s).waveSel = s.waveSel := rfl
@[simp] theorem storeWord_layerSel (sp : Space) (i : Nat) (w : Word) (s : State) : (storeWord sp i w s).layerSel = s.layerSel := rfl
@[simp] theorem storeWord_queue (sp : Space) (i : Nat) (w : Word) (s : State) : (storeWord sp i w s).queue = s.queue := rfl
@[simp] theorem storeWord_mem (sp : Space) (i : Nat) (w : Word) (s : State) : (storeWord sp i w s).mem = memWrite s.mem sp i w := rfl
@[simp] theorem storeWord_delayRd (sp : Space) (i : Nat) (w : Word) (s : State) : (storeWord sp i w s).delayRd = s.delayRd := rfl
@[simp] theorem storeWord_delayWr (sp : Space) (i : Nat) (w : Word) (s : State) : (storeWord sp i w s).delayWr = s.delayWr := rfl
@[simp] theorem storeWord_dlenDirty (sp : Space) (i : Nat) (w : Word) (s : State) : (storeWord sp i w s).dlenDirty = s.dlenDirty := rfl
@[simp] theorem storeWord_visWr (sp : Space) (i : Nat) (w : Word) (s : State) : (storeWord sp i w s).visWr = s.visWr := rfl
@[simp] theorem storeWord_pend (sp : Space) (i : Nat) (w : Word) (s : State) : (storeWord sp i w s).pend = s.pend := rfl
@[simp] theorem storeWord_active (sp : Space) (i : Nat) (w : Word) (s : State) : (storeWord sp i w s).active = s.active := rfl
@[simp] theorem storeWord_run (sp : Space) (i : Nat) (w : Word) (s : State) : (storeWord sp i w s).run = s.run := rfl
@[simp] theorem storeWord_cfgErr (sp : Space) (i : Nat) (w : Word) (s : State) : (storeWord sp i w s).cfgErr = s.cfgErr := rfl
@[simp] theorem storeWord_busErr (sp : Space) (i : Nat) (w : Word) (s : State) : (storeWord sp i w s).busErr = s.busErr := rfl
@[simp] theorem storeWord_renderErr (sp : Space) (i : Nat) (w : Word) (s : State) : (storeWord sp i w s).renderErr = s.renderErr := rfl
@[simp] theorem storeWord_stopPending (sp : Space) (i : Nat) (w : Word) (s : State) : (storeWord sp i w s).stopPending = s.stopPending := rfl
@[simp] theorem storeWord_lastErr (sp : Space) (i : Nat) (w : Word) (s : State) : (storeWord sp i w s).lastErr = s.lastErr := rfl
@[simp] theorem storeWord_dropCount (sp : Space) (i : Nat) (w : Word) (s : State) : (storeWord sp i w s).dropCount = s.dropCount := rfl
@[simp] theorem storeWord_ignCount (sp : Space) (i : Nat) (w : Word) (s : State) : (storeWord sp i w s).ignCount = s.ignCount := rfl
@[simp] theorem storeWord_qovfCount (sp : Space) (i : Nat) (w : Word) (s : State) : (storeWord sp i w s).qovfCount = s.qovfCount := rfl
@[simp] theorem storeWord_frameCount (sp : Space) (i : Nat) (w : Word) (s : State) : (storeWord sp i w s).frameCount = s.frameCount := rfl
@[simp] theorem storeWord_framesLeft (sp : Space) (i : Nat) (w : Word) (s : State) : (storeWord sp i w s).framesLeft = s.framesLeft := rfl
@[simp] theorem storeWord_frameIdx (sp : Space) (i : Nat) (w : Word) (s : State) : (storeWord sp i w s).frameIdx = s.frameIdx := rfl
@[simp] theorem storeWord_host (sp : Space) (i : Nat) (w : Word) (s : State) : (storeWord sp i w s).host = s.host := rfl
@[simp] theorem storeWord_out (sp : Space) (i : Nat) (w : Word) (s : State) : (storeWord sp i w s).out = s.out := rfl
@[simp] theorem storeWord_rdata (sp : Space) (i : Nat) (w : Word) (s : State) : (storeWord sp i w s).rdata = s.rdata := rfl
@[simp] theorem storeWord_draws (sp : Space) (i : Nat) (w : Word) (s : State) : (storeWord sp i w s).draws = s.draws := rfl

/-! ## emit -/

@[simp] theorem emit_params (y : F32) (s : State) : (emit y s).params = s.params := rfl
@[simp] theorem emit_voices (y : F32) (s : State) : (emit y s).voices = s.voices := rfl
@[simp] theorem emit_waveSel (y : F32) (s : State) : (emit y s).waveSel = s.waveSel := rfl
@[simp] theorem emit_layerSel (y : F32) (s : State) : (emit y s).layerSel = s.layerSel := rfl
@[simp] theorem emit_queue (y : F32) (s : State) : (emit y s).queue = s.queue := rfl
@[simp] theorem emit_mem (y : F32) (s : State) : (emit y s).mem = s.mem := rfl
@[simp] theorem emit_delayRd (y : F32) (s : State) : (emit y s).delayRd = s.delayRd := rfl
@[simp] theorem emit_delayWr (y : F32) (s : State) : (emit y s).delayWr = s.delayWr := rfl
@[simp] theorem emit_dlenDirty (y : F32) (s : State) : (emit y s).dlenDirty = s.dlenDirty := rfl
@[simp] theorem emit_visWr (y : F32) (s : State) : (emit y s).visWr = s.visWr := rfl
@[simp] theorem emit_pend (y : F32) (s : State) : (emit y s).pend = s.pend := rfl
@[simp] theorem emit_active (y : F32) (s : State) : (emit y s).active = s.active := rfl
@[simp] theorem emit_run (y : F32) (s : State) : (emit y s).run = s.run := rfl
@[simp] theorem emit_cfgErr (y : F32) (s : State) : (emit y s).cfgErr = s.cfgErr := rfl
@[simp] theorem emit_busErr (y : F32) (s : State) : (emit y s).busErr = s.busErr := rfl
@[simp] theorem emit_renderErr (y : F32) (s : State) : (emit y s).renderErr = s.renderErr := rfl
@[simp] theorem emit_stopPending (y : F32) (s : State) : (emit y s).stopPending = s.stopPending := rfl
@[simp] theorem emit_lastErr (y : F32) (s : State) : (emit y s).lastErr = s.lastErr := rfl
@[simp] theorem emit_dropCount (y : F32) (s : State) : (emit y s).dropCount = s.dropCount := rfl
@[simp] theorem emit_ignCount (y : F32) (s : State) : (emit y s).ignCount = s.ignCount := rfl
@[simp] theorem emit_qovfCount (y : F32) (s : State) : (emit y s).qovfCount = s.qovfCount := rfl
@[simp] theorem emit_frameCount (y : F32) (s : State) : (emit y s).frameCount = s.frameCount := rfl
@[simp] theorem emit_framesLeft (y : F32) (s : State) : (emit y s).framesLeft = s.framesLeft := rfl
@[simp] theorem emit_frameIdx (y : F32) (s : State) : (emit y s).frameIdx = s.frameIdx := rfl
@[simp] theorem emit_host (y : F32) (s : State) : (emit y s).host = s.host := rfl
@[simp] theorem emit_out (y : F32) (s : State) : (emit y s).out = s.out ++ [y] := rfl
@[simp] theorem emit_rdata (y : F32) (s : State) : (emit y s).rdata = s.rdata := rfl
@[simp] theorem emit_draws (y : F32) (s : State) : (emit y s).draws = s.draws := rfl

/-! ## visStep -/

@[simp] theorem visStep_params (y : F32) (s : State) : (visStep y s).params = s.params := rfl
@[simp] theorem visStep_voices (y : F32) (s : State) : (visStep y s).voices = s.voices := rfl
@[simp] theorem visStep_waveSel (y : F32) (s : State) : (visStep y s).waveSel = s.waveSel := rfl
@[simp] theorem visStep_layerSel (y : F32) (s : State) : (visStep y s).layerSel = s.layerSel := rfl
@[simp] theorem visStep_queue (y : F32) (s : State) : (visStep y s).queue = s.queue := rfl
@[simp] theorem visStep_mem (y : F32) (s : State) : (visStep y s).mem = memWrite s.mem .vis s.visWr y := rfl
@[simp] theorem visStep_delayRd (y : F32) (s : State) : (visStep y s).delayRd = s.delayRd := rfl
@[simp] theorem visStep_delayWr (y : F32) (s : State) : (visStep y s).delayWr = s.delayWr := rfl
@[simp] theorem visStep_dlenDirty (y : F32) (s : State) : (visStep y s).dlenDirty = s.dlenDirty := rfl
@[simp] theorem visStep_visWr (y : F32) (s : State) : (visStep y s).visWr = (s.visWr + 1) % s.params.visCap := rfl
@[simp] theorem visStep_pend (y : F32) (s : State) : (visStep y s).pend = s.pend := rfl
@[simp] theorem visStep_active (y : F32) (s : State) : (visStep y s).active = s.active := rfl
@[simp] theorem visStep_run (y : F32) (s : State) : (visStep y s).run = s.run := rfl
@[simp] theorem visStep_cfgErr (y : F32) (s : State) : (visStep y s).cfgErr = s.cfgErr := rfl
@[simp] theorem visStep_busErr (y : F32) (s : State) : (visStep y s).busErr = s.busErr := rfl
@[simp] theorem visStep_renderErr (y : F32) (s : State) : (visStep y s).renderErr = s.renderErr := rfl
@[simp] theorem visStep_stopPending (y : F32) (s : State) : (visStep y s).stopPending = s.stopPending := rfl
@[simp] theorem visStep_lastErr (y : F32) (s : State) : (visStep y s).lastErr = s.lastErr := rfl
@[simp] theorem visStep_dropCount (y : F32) (s : State) : (visStep y s).dropCount = s.dropCount := rfl
@[simp] theorem visStep_ignCount (y : F32) (s : State) : (visStep y s).ignCount = s.ignCount := rfl
@[simp] theorem visStep_qovfCount (y : F32) (s : State) : (visStep y s).qovfCount = s.qovfCount := rfl
@[simp] theorem visStep_frameCount (y : F32) (s : State) : (visStep y s).frameCount = s.frameCount := rfl
@[simp] theorem visStep_framesLeft (y : F32) (s : State) : (visStep y s).framesLeft = s.framesLeft := rfl
@[simp] theorem visStep_frameIdx (y : F32) (s : State) : (visStep y s).frameIdx = s.frameIdx := rfl
@[simp] theorem visStep_host (y : F32) (s : State) : (visStep y s).host = s.host := rfl
@[simp] theorem visStep_out (y : F32) (s : State) : (visStep y s).out = s.out := rfl
@[simp] theorem visStep_rdata (y : F32) (s : State) : (visStep y s).rdata = s.rdata := rfl
@[simp] theorem visStep_draws (y : F32) (s : State) : (visStep y s).draws = s.draws := rfl

/-! ## countFrame -/

@[simp] theorem countFrame_params (s : State) : (countFrame s).params = s.params := rfl
@[simp] theorem countFrame_voices (s : State) : (countFrame s).voices = s.voices := rfl
@[simp] theorem countFrame_waveSel (s : State) : (countFrame s).waveSel = s.waveSel := rfl
@[simp] theorem countFrame_layerSel (s : State) : (countFrame s).layerSel = s.layerSel := rfl
@[simp] theorem countFrame_queue (s : State) : (countFrame s).queue = s.queue := rfl
@[simp] theorem countFrame_mem (s : State) : (countFrame s).mem = s.mem := rfl
@[simp] theorem countFrame_delayRd (s : State) : (countFrame s).delayRd = s.delayRd := rfl
@[simp] theorem countFrame_delayWr (s : State) : (countFrame s).delayWr = s.delayWr := rfl
@[simp] theorem countFrame_dlenDirty (s : State) : (countFrame s).dlenDirty = s.dlenDirty := rfl
@[simp] theorem countFrame_visWr (s : State) : (countFrame s).visWr = s.visWr := rfl
@[simp] theorem countFrame_pend (s : State) : (countFrame s).pend = s.pend := rfl
@[simp] theorem countFrame_active (s : State) : (countFrame s).active = s.active := rfl
@[simp] theorem countFrame_run (s : State) : (countFrame s).run = s.run := rfl
@[simp] theorem countFrame_cfgErr (s : State) : (countFrame s).cfgErr = s.cfgErr := rfl
@[simp] theorem countFrame_busErr (s : State) : (countFrame s).busErr = s.busErr := rfl
@[simp] theorem countFrame_renderErr (s : State) : (countFrame s).renderErr = s.renderErr := rfl
@[simp] theorem countFrame_stopPending (s : State) : (countFrame s).stopPending = s.stopPending := rfl
@[simp] theorem countFrame_lastErr (s : State) : (countFrame s).lastErr = s.lastErr := rfl
@[simp] theorem countFrame_dropCount (s : State) : (countFrame s).dropCount = s.dropCount := rfl
@[simp] theorem countFrame_ignCount (s : State) : (countFrame s).ignCount = s.ignCount := rfl
@[simp] theorem countFrame_qovfCount (s : State) : (countFrame s).qovfCount = s.qovfCount := rfl
@[simp] theorem countFrame_frameCount (s : State) : (countFrame s).frameCount = s.frameCount + 1 := rfl
@[simp] theorem countFrame_framesLeft (s : State) : (countFrame s).framesLeft = s.framesLeft - 1 := rfl
@[simp] theorem countFrame_frameIdx (s : State) : (countFrame s).frameIdx = s.frameIdx + 1 := rfl
@[simp] theorem countFrame_host (s : State) : (countFrame s).host = s.host := rfl
@[simp] theorem countFrame_out (s : State) : (countFrame s).out = s.out := rfl
@[simp] theorem countFrame_rdata (s : State) : (countFrame s).rdata = s.rdata := rfl
@[simp] theorem countFrame_draws (s : State) : (countFrame s).draws = s.draws := rfl

/-! ## noteOff -/

@[simp] theorem noteOff_params (k : BitVec 7) (s : State) : (noteOff k s).params = s.params := rfl
@[simp] theorem noteOff_voices (k : BitVec 7) (s : State) : (noteOff k s).voices = s.voices.map (releaseVoice k) := rfl
@[simp] theorem noteOff_waveSel (k : BitVec 7) (s : State) : (noteOff k s).waveSel = s.waveSel := rfl
@[simp] theorem noteOff_layerSel (k : BitVec 7) (s : State) : (noteOff k s).layerSel = s.layerSel := rfl
@[simp] theorem noteOff_queue (k : BitVec 7) (s : State) : (noteOff k s).queue = s.queue := rfl
@[simp] theorem noteOff_mem (k : BitVec 7) (s : State) : (noteOff k s).mem = s.mem := rfl
@[simp] theorem noteOff_delayRd (k : BitVec 7) (s : State) : (noteOff k s).delayRd = s.delayRd := rfl
@[simp] theorem noteOff_delayWr (k : BitVec 7) (s : State) : (noteOff k s).delayWr = s.delayWr := rfl
@[simp] theorem noteOff_dlenDirty (k : BitVec 7) (s : State) : (noteOff k s).dlenDirty = s.dlenDirty := rfl
@[simp] theorem noteOff_visWr (k : BitVec 7) (s : State) : (noteOff k s).visWr = s.visWr := rfl
@[simp] theorem noteOff_pend (k : BitVec 7) (s : State) : (noteOff k s).pend = s.pend := rfl
@[simp] theorem noteOff_active (k : BitVec 7) (s : State) : (noteOff k s).active = s.active := rfl
@[simp] theorem noteOff_run (k : BitVec 7) (s : State) : (noteOff k s).run = s.run := rfl
@[simp] theorem noteOff_cfgErr (k : BitVec 7) (s : State) : (noteOff k s).cfgErr = s.cfgErr := rfl
@[simp] theorem noteOff_busErr (k : BitVec 7) (s : State) : (noteOff k s).busErr = s.busErr := rfl
@[simp] theorem noteOff_renderErr (k : BitVec 7) (s : State) : (noteOff k s).renderErr = s.renderErr := rfl
@[simp] theorem noteOff_stopPending (k : BitVec 7) (s : State) : (noteOff k s).stopPending = s.stopPending := rfl
@[simp] theorem noteOff_lastErr (k : BitVec 7) (s : State) : (noteOff k s).lastErr = s.lastErr := rfl
@[simp] theorem noteOff_dropCount (k : BitVec 7) (s : State) : (noteOff k s).dropCount = s.dropCount := rfl
@[simp] theorem noteOff_ignCount (k : BitVec 7) (s : State) : (noteOff k s).ignCount = s.ignCount := rfl
@[simp] theorem noteOff_qovfCount (k : BitVec 7) (s : State) : (noteOff k s).qovfCount = s.qovfCount := rfl
@[simp] theorem noteOff_frameCount (k : BitVec 7) (s : State) : (noteOff k s).frameCount = s.frameCount := rfl
@[simp] theorem noteOff_framesLeft (k : BitVec 7) (s : State) : (noteOff k s).framesLeft = s.framesLeft := rfl
@[simp] theorem noteOff_frameIdx (k : BitVec 7) (s : State) : (noteOff k s).frameIdx = s.frameIdx := rfl
@[simp] theorem noteOff_host (k : BitVec 7) (s : State) : (noteOff k s).host = s.host := rfl
@[simp] theorem noteOff_out (k : BitVec 7) (s : State) : (noteOff k s).out = s.out := rfl
@[simp] theorem noteOff_rdata (k : BitVec 7) (s : State) : (noteOff k s).rdata = s.rdata := rfl
@[simp] theorem noteOff_draws (k : BitVec 7) (s : State) : (noteOff k s).draws = s.draws := rfl

/-! ## resetBlock -/

@[simp] theorem resetBlock_params (s : State) : (resetBlock s).params = s.params := rfl
@[simp] theorem resetBlock_voices (s : State) : (resetBlock s).voices = (State.resetOf s.params).voices := rfl
@[simp] theorem resetBlock_waveSel (s : State) : (resetBlock s).waveSel = (State.resetOf s.params).waveSel := rfl
@[simp] theorem resetBlock_layerSel (s : State) : (resetBlock s).layerSel = (State.resetOf s.params).layerSel := rfl
@[simp] theorem resetBlock_queue (s : State) : (resetBlock s).queue = (State.resetOf s.params).queue := rfl
@[simp] theorem resetBlock_mem (s : State) : (resetBlock s).mem = (State.resetOf s.params).mem := rfl
@[simp] theorem resetBlock_delayRd (s : State) : (resetBlock s).delayRd = (State.resetOf s.params).delayRd := rfl
@[simp] theorem resetBlock_delayWr (s : State) : (resetBlock s).delayWr = (State.resetOf s.params).delayWr := rfl
@[simp] theorem resetBlock_dlenDirty (s : State) : (resetBlock s).dlenDirty = (State.resetOf s.params).dlenDirty := rfl
@[simp] theorem resetBlock_visWr (s : State) : (resetBlock s).visWr = (State.resetOf s.params).visWr := rfl
@[simp] theorem resetBlock_pend (s : State) : (resetBlock s).pend = (State.resetOf s.params).pend := rfl
@[simp] theorem resetBlock_active (s : State) : (resetBlock s).active = (State.resetOf s.params).active := rfl
@[simp] theorem resetBlock_run (s : State) : (resetBlock s).run = (State.resetOf s.params).run := rfl
@[simp] theorem resetBlock_cfgErr (s : State) : (resetBlock s).cfgErr = (State.resetOf s.params).cfgErr := rfl
@[simp] theorem resetBlock_busErr (s : State) : (resetBlock s).busErr = (State.resetOf s.params).busErr := rfl
@[simp] theorem resetBlock_renderErr (s : State) : (resetBlock s).renderErr = (State.resetOf s.params).renderErr := rfl
@[simp] theorem resetBlock_stopPending (s : State) : (resetBlock s).stopPending = (State.resetOf s.params).stopPending := rfl
@[simp] theorem resetBlock_lastErr (s : State) : (resetBlock s).lastErr = (State.resetOf s.params).lastErr := rfl
@[simp] theorem resetBlock_dropCount (s : State) : (resetBlock s).dropCount = (State.resetOf s.params).dropCount := rfl
@[simp] theorem resetBlock_ignCount (s : State) : (resetBlock s).ignCount = (State.resetOf s.params).ignCount := rfl
@[simp] theorem resetBlock_qovfCount (s : State) : (resetBlock s).qovfCount = (State.resetOf s.params).qovfCount := rfl
@[simp] theorem resetBlock_frameCount (s : State) : (resetBlock s).frameCount = (State.resetOf s.params).frameCount := rfl
@[simp] theorem resetBlock_framesLeft (s : State) : (resetBlock s).framesLeft = (State.resetOf s.params).framesLeft := rfl
@[simp] theorem resetBlock_frameIdx (s : State) : (resetBlock s).frameIdx = (State.resetOf s.params).frameIdx := rfl
@[simp] theorem resetBlock_host (s : State) : (resetBlock s).host = s.host := rfl
@[simp] theorem resetBlock_out (s : State) : (resetBlock s).out = s.out := rfl
@[simp] theorem resetBlock_rdata (s : State) : (resetBlock s).rdata = s.rdata := rfl
@[simp] theorem resetBlock_draws (s : State) : (resetBlock s).draws = s.draws := rfl

/-! ## clearCounter -/

@[simp] theorem clearCounter_params (c : Counter) (s : State) : (clearCounter c s).params = s.params := by
  cases c <;> rfl
@[simp] theorem clearCounter_voices (c : Counter) (s : State) : (clearCounter c s).voices = s.voices := by
  cases c <;> rfl
@[simp] theorem clearCounter_waveSel (c : Counter) (s : State) : (clearCounter c s).waveSel = s.waveSel := by
  cases c <;> rfl
@[simp] theorem clearCounter_layerSel (c : Counter) (s : State) : (clearCounter c s).layerSel = s.layerSel := by
  cases c <;> rfl
@[simp] theorem clearCounter_queue (c : Counter) (s : State) : (clearCounter c s).queue = s.queue := by
  cases c <;> rfl
@[simp] theorem clearCounter_mem (c : Counter) (s : State) : (clearCounter c s).mem = s.mem := by
  cases c <;> rfl
@[simp] theorem clearCounter_delayRd (c : Counter) (s : State) : (clearCounter c s).delayRd = s.delayRd := by
  cases c <;> rfl
@[simp] theorem clearCounter_delayWr (c : Counter) (s : State) : (clearCounter c s).delayWr = s.delayWr := by
  cases c <;> rfl
@[simp] theorem clearCounter_dlenDirty (c : Counter) (s : State) : (clearCounter c s).dlenDirty = s.dlenDirty := by
  cases c <;> rfl
@[simp] theorem clearCounter_visWr (c : Counter) (s : State) : (clearCounter c s).visWr = s.visWr := by
  cases c <;> rfl
@[simp] theorem clearCounter_pend (c : Counter) (s : State) : (clearCounter c s).pend = s.pend := by
  cases c <;> rfl
@[simp] theorem clearCounter_active (c : Counter) (s : State) : (clearCounter c s).active = s.active := by
  cases c <;> rfl
@[simp] theorem clearCounter_run (c : Counter) (s : State) : (clearCounter c s).run = s.run := by
  cases c <;> rfl
@[simp] theorem clearCounter_cfgErr (c : Counter) (s : State) : (clearCounter c s).cfgErr = s.cfgErr := by
  cases c <;> rfl
@[simp] theorem clearCounter_busErr (c : Counter) (s : State) : (clearCounter c s).busErr = s.busErr := by
  cases c <;> rfl
@[simp] theorem clearCounter_renderErr (c : Counter) (s : State) : (clearCounter c s).renderErr = s.renderErr := by
  cases c <;> rfl
@[simp] theorem clearCounter_stopPending (c : Counter) (s : State) : (clearCounter c s).stopPending = s.stopPending := by
  cases c <;> rfl
@[simp] theorem clearCounter_lastErr (c : Counter) (s : State) : (clearCounter c s).lastErr = s.lastErr := by
  cases c <;> rfl
@[simp] theorem clearCounter_dropCount (c : Counter) (s : State) : (clearCounter c s).dropCount =
    (if c = .drop then clearedCount c s else s.dropCount) := by
  cases c <;> rfl
@[simp] theorem clearCounter_ignCount (c : Counter) (s : State) : (clearCounter c s).ignCount =
    (if c = .ign then clearedCount c s else s.ignCount) := by
  cases c <;> rfl
@[simp] theorem clearCounter_qovfCount (c : Counter) (s : State) : (clearCounter c s).qovfCount =
    (if c = .qovf then clearedCount c s else s.qovfCount) := by
  cases c <;> rfl
@[simp] theorem clearCounter_frameCount (c : Counter) (s : State) : (clearCounter c s).frameCount = s.frameCount := by
  cases c <;> rfl
@[simp] theorem clearCounter_framesLeft (c : Counter) (s : State) : (clearCounter c s).framesLeft = s.framesLeft := by
  cases c <;> rfl
@[simp] theorem clearCounter_frameIdx (c : Counter) (s : State) : (clearCounter c s).frameIdx = s.frameIdx := by
  cases c <;> rfl
@[simp] theorem clearCounter_host (c : Counter) (s : State) : (clearCounter c s).host = s.host := by
  cases c <;> rfl
@[simp] theorem clearCounter_out (c : Counter) (s : State) : (clearCounter c s).out = s.out := by
  cases c <;> rfl
@[simp] theorem clearCounter_rdata (c : Counter) (s : State) : (clearCounter c s).rdata = s.rdata := by
  cases c <;> rfl
@[simp] theorem clearCounter_draws (c : Counter) (s : State) : (clearCounter c s).draws =
    (if clearRaces c s then s.draws + 1 else s.draws) := by
  cases c <;> rfl

@[simp] theorem clearRaces_qovf (s : State) : clearRaces .qovf s = false := by simp [clearRaces]
@[simp] theorem clearedCount_qovf (s : State) : clearedCount .qovf s = 0 := by simp [clearedCount]
theorem clearedCount_idle (c : Counter) (s : State) (h : s.busy = false) : clearedCount c s = 0 := by
  simp [clearedCount, clearRaces, h]
theorem clearedCount_cases (c : Counter) (s : State) : clearedCount c s = 0 ∨ clearedCount c s = 1 := by
  unfold clearedCount; split <;> simp

/-! ## renderDone -/

@[simp] theorem renderDone_params (s : State) : (renderDone s).params = s.params := by
  unfold renderDone; split <;> rfl
@[simp] theorem renderDone_voices (s : State) : (renderDone s).voices = s.voices := by
  unfold renderDone; split <;> rfl
@[simp] theorem renderDone_waveSel (s : State) : (renderDone s).waveSel = s.waveSel := by
  unfold renderDone; split <;> rfl
@[simp] theorem renderDone_layerSel (s : State) : (renderDone s).layerSel = s.layerSel := by
  unfold renderDone; split <;> rfl
@[simp] theorem renderDone_queue (s : State) : (renderDone s).queue = s.queue := by
  unfold renderDone; split <;> rfl
@[simp] theorem renderDone_mem (s : State) : (renderDone s).mem = s.mem := by
  unfold renderDone; split <;> rfl
@[simp] theorem renderDone_delayRd (s : State) : (renderDone s).delayRd = s.delayRd := by
  unfold renderDone; split <;> rfl
@[simp] theorem renderDone_delayWr (s : State) : (renderDone s).delayWr = s.delayWr := by
  unfold renderDone; split <;> rfl
@[simp] theorem renderDone_dlenDirty (s : State) : (renderDone s).dlenDirty = s.dlenDirty := by
  unfold renderDone; split <;> rfl
@[simp] theorem renderDone_visWr (s : State) : (renderDone s).visWr = s.visWr := by
  unfold renderDone; split <;> rfl
@[simp] theorem renderDone_pend (s : State) : (renderDone s).pend = s.pend := by
  unfold renderDone; split <;> rfl
@[simp] theorem renderDone_active (s : State) : (renderDone s).active = s.active := by
  unfold renderDone; split <;> rfl
@[simp] theorem renderDone_cfgErr (s : State) : (renderDone s).cfgErr = s.cfgErr := by
  unfold renderDone; split <;> rfl
@[simp] theorem renderDone_busErr (s : State) : (renderDone s).busErr = s.busErr := by
  unfold renderDone; split <;> rfl
@[simp] theorem renderDone_renderErr (s : State) : (renderDone s).renderErr = s.renderErr := by
  unfold renderDone; split <;> rfl
@[simp] theorem renderDone_lastErr (s : State) : (renderDone s).lastErr = s.lastErr := by
  unfold renderDone; split <;> rfl
@[simp] theorem renderDone_dropCount (s : State) : (renderDone s).dropCount = s.dropCount := by
  unfold renderDone; split <;> rfl
@[simp] theorem renderDone_ignCount (s : State) : (renderDone s).ignCount = s.ignCount := by
  unfold renderDone; split <;> rfl
@[simp] theorem renderDone_qovfCount (s : State) : (renderDone s).qovfCount = s.qovfCount := by
  unfold renderDone; split <;> rfl
@[simp] theorem renderDone_frameCount (s : State) : (renderDone s).frameCount = s.frameCount := by
  unfold renderDone; split <;> rfl
@[simp] theorem renderDone_framesLeft (s : State) : (renderDone s).framesLeft = s.framesLeft := by
  unfold renderDone; split <;> rfl
@[simp] theorem renderDone_frameIdx (s : State) : (renderDone s).frameIdx = s.frameIdx := by
  unfold renderDone; split <;> rfl
@[simp] theorem renderDone_host (s : State) : (renderDone s).host = s.host := by
  unfold renderDone; split <;> rfl
@[simp] theorem renderDone_out (s : State) : (renderDone s).out = s.out := by
  unfold renderDone; split <;> rfl
@[simp] theorem renderDone_rdata (s : State) : (renderDone s).rdata = s.rdata := by
  unfold renderDone; split <;> rfl
@[simp] theorem renderDone_draws (s : State) : (renderDone s).draws = s.draws := by
  unfold renderDone; split <;> rfl

/-! ## pushEvent -/

@[simp] theorem pushEvent_params (e : EventWord) (s : State) : (pushEvent e s).params = s.params := by
  unfold pushEvent; split <;> rfl
@[simp] theorem pushEvent_voices (e : EventWord) (s : State) : (pushEvent e s).voices = s.voices := by
  unfold pushEvent; split <;> rfl
@[simp] theorem pushEvent_waveSel (e : EventWord) (s : State) : (pushEvent e s).waveSel = s.waveSel := by
  unfold pushEvent; split <;> rfl
@[simp] theorem pushEvent_layerSel (e : EventWord) (s : State) : (pushEvent e s).layerSel = s.layerSel := by
  unfold pushEvent; split <;> rfl
@[simp] theorem pushEvent_mem (e : EventWord) (s : State) : (pushEvent e s).mem = s.mem := by
  unfold pushEvent; split <;> rfl
@[simp] theorem pushEvent_delayRd (e : EventWord) (s : State) : (pushEvent e s).delayRd = s.delayRd := by
  unfold pushEvent; split <;> rfl
@[simp] theorem pushEvent_delayWr (e : EventWord) (s : State) : (pushEvent e s).delayWr = s.delayWr := by
  unfold pushEvent; split <;> rfl
@[simp] theorem pushEvent_dlenDirty (e : EventWord) (s : State) : (pushEvent e s).dlenDirty = s.dlenDirty := by
  unfold pushEvent; split <;> rfl
@[simp] theorem pushEvent_visWr (e : EventWord) (s : State) : (pushEvent e s).visWr = s.visWr := by
  unfold pushEvent; split <;> rfl
@[simp] theorem pushEvent_pend (e : EventWord) (s : State) : (pushEvent e s).pend = s.pend := by
  unfold pushEvent; split <;> rfl
@[simp] theorem pushEvent_active (e : EventWord) (s : State) : (pushEvent e s).active = s.active := by
  unfold pushEvent; split <;> rfl
@[simp] theorem pushEvent_run (e : EventWord) (s : State) : (pushEvent e s).run = s.run := by
  unfold pushEvent; split <;> rfl
@[simp] theorem pushEvent_cfgErr (e : EventWord) (s : State) : (pushEvent e s).cfgErr = s.cfgErr := by
  unfold pushEvent; split <;> rfl
@[simp] theorem pushEvent_busErr (e : EventWord) (s : State) : (pushEvent e s).busErr = s.busErr := by
  unfold pushEvent; split <;> rfl
@[simp] theorem pushEvent_renderErr (e : EventWord) (s : State) : (pushEvent e s).renderErr = s.renderErr := by
  unfold pushEvent; split <;> rfl
@[simp] theorem pushEvent_stopPending (e : EventWord) (s : State) : (pushEvent e s).stopPending = s.stopPending := by
  unfold pushEvent; split <;> rfl
@[simp] theorem pushEvent_lastErr (e : EventWord) (s : State) : (pushEvent e s).lastErr = s.lastErr := by
  unfold pushEvent; split <;> rfl
@[simp] theorem pushEvent_dropCount (e : EventWord) (s : State) : (pushEvent e s).dropCount = s.dropCount := by
  unfold pushEvent; split <;> rfl
@[simp] theorem pushEvent_ignCount (e : EventWord) (s : State) : (pushEvent e s).ignCount = s.ignCount := by
  unfold pushEvent; split <;> rfl
@[simp] theorem pushEvent_frameCount (e : EventWord) (s : State) : (pushEvent e s).frameCount = s.frameCount := by
  unfold pushEvent; split <;> rfl
@[simp] theorem pushEvent_framesLeft (e : EventWord) (s : State) : (pushEvent e s).framesLeft = s.framesLeft := by
  unfold pushEvent; split <;> rfl
@[simp] theorem pushEvent_frameIdx (e : EventWord) (s : State) : (pushEvent e s).frameIdx = s.frameIdx := by
  unfold pushEvent; split <;> rfl
@[simp] theorem pushEvent_host (e : EventWord) (s : State) : (pushEvent e s).host = s.host := by
  unfold pushEvent; split <;> rfl
@[simp] theorem pushEvent_out (e : EventWord) (s : State) : (pushEvent e s).out = s.out := by
  unfold pushEvent; split <;> rfl
@[simp] theorem pushEvent_rdata (e : EventWord) (s : State) : (pushEvent e s).rdata = s.rdata := by
  unfold pushEvent; split <;> rfl
@[simp] theorem pushEvent_draws (e : EventWord) (s : State) : (pushEvent e s).draws = s.draws := by
  unfold pushEvent; split <;> rfl

/-! ## noteOn -/

@[simp] theorem noteOn_params (k vel : BitVec 7) (s : State) : (noteOn k vel s).params = s.params := by
  unfold noteOn; split <;> rfl
@[simp] theorem noteOn_waveSel (k vel : BitVec 7) (s : State) : (noteOn k vel s).waveSel = s.waveSel := by
  unfold noteOn; split <;> rfl
@[simp] theorem noteOn_layerSel (k vel : BitVec 7) (s : State) : (noteOn k vel s).layerSel = s.layerSel := by
  unfold noteOn; split <;> rfl
@[simp] theorem noteOn_queue (k vel : BitVec 7) (s : State) : (noteOn k vel s).queue = s.queue := by
  unfold noteOn; split <;> rfl
@[simp] theorem noteOn_mem (k vel : BitVec 7) (s : State) : (noteOn k vel s).mem = s.mem := by
  unfold noteOn; split <;> rfl
@[simp] theorem noteOn_delayRd (k vel : BitVec 7) (s : State) : (noteOn k vel s).delayRd = s.delayRd := by
  unfold noteOn; split <;> rfl
@[simp] theorem noteOn_delayWr (k vel : BitVec 7) (s : State) : (noteOn k vel s).delayWr = s.delayWr := by
  unfold noteOn; split <;> rfl
@[simp] theorem noteOn_dlenDirty (k vel : BitVec 7) (s : State) : (noteOn k vel s).dlenDirty = s.dlenDirty := by
  unfold noteOn; split <;> rfl
@[simp] theorem noteOn_visWr (k vel : BitVec 7) (s : State) : (noteOn k vel s).visWr = s.visWr := by
  unfold noteOn; split <;> rfl
@[simp] theorem noteOn_pend (k vel : BitVec 7) (s : State) : (noteOn k vel s).pend = s.pend := by
  unfold noteOn; split <;> rfl
@[simp] theorem noteOn_active (k vel : BitVec 7) (s : State) : (noteOn k vel s).active = s.active := by
  unfold noteOn; split <;> rfl
@[simp] theorem noteOn_run (k vel : BitVec 7) (s : State) : (noteOn k vel s).run = s.run := by
  unfold noteOn; split <;> rfl
@[simp] theorem noteOn_cfgErr (k vel : BitVec 7) (s : State) : (noteOn k vel s).cfgErr = s.cfgErr := by
  unfold noteOn; split <;> rfl
@[simp] theorem noteOn_busErr (k vel : BitVec 7) (s : State) : (noteOn k vel s).busErr = s.busErr := by
  unfold noteOn; split <;> rfl
@[simp] theorem noteOn_renderErr (k vel : BitVec 7) (s : State) : (noteOn k vel s).renderErr = s.renderErr := by
  unfold noteOn; split <;> rfl
@[simp] theorem noteOn_stopPending (k vel : BitVec 7) (s : State) : (noteOn k vel s).stopPending = s.stopPending := by
  unfold noteOn; split <;> rfl
@[simp] theorem noteOn_lastErr (k vel : BitVec 7) (s : State) : (noteOn k vel s).lastErr = s.lastErr := by
  unfold noteOn; split <;> rfl
@[simp] theorem noteOn_ignCount (k vel : BitVec 7) (s : State) : (noteOn k vel s).ignCount = s.ignCount := by
  unfold noteOn; split <;> rfl
@[simp] theorem noteOn_qovfCount (k vel : BitVec 7) (s : State) : (noteOn k vel s).qovfCount = s.qovfCount := by
  unfold noteOn; split <;> rfl
@[simp] theorem noteOn_frameCount (k vel : BitVec 7) (s : State) : (noteOn k vel s).frameCount = s.frameCount := by
  unfold noteOn; split <;> rfl
@[simp] theorem noteOn_framesLeft (k vel : BitVec 7) (s : State) : (noteOn k vel s).framesLeft = s.framesLeft := by
  unfold noteOn; split <;> rfl
@[simp] theorem noteOn_frameIdx (k vel : BitVec 7) (s : State) : (noteOn k vel s).frameIdx = s.frameIdx := by
  unfold noteOn; split <;> rfl
@[simp] theorem noteOn_host (k vel : BitVec 7) (s : State) : (noteOn k vel s).host = s.host := by
  unfold noteOn; split <;> rfl
@[simp] theorem noteOn_out (k vel : BitVec 7) (s : State) : (noteOn k vel s).out = s.out := by
  unfold noteOn; split <;> rfl
@[simp] theorem noteOn_rdata (k vel : BitVec 7) (s : State) : (noteOn k vel s).rdata = s.rdata := by
  unfold noteOn; split <;> rfl

/-! ## selectWave -/

@[simp] theorem selectWave_params (d : BitVec 7) (s : State) : (selectWave d s).params = s.params := by
  unfold selectWave; split <;> rfl
@[simp] theorem selectWave_voices (d : BitVec 7) (s : State) : (selectWave d s).voices = s.voices := by
  unfold selectWave; split <;> rfl
@[simp] theorem selectWave_layerSel (d : BitVec 7) (s : State) : (selectWave d s).layerSel = s.layerSel := by
  unfold selectWave; split <;> rfl
@[simp] theorem selectWave_queue (d : BitVec 7) (s : State) : (selectWave d s).queue = s.queue := by
  unfold selectWave; split <;> rfl
@[simp] theorem selectWave_mem (d : BitVec 7) (s : State) : (selectWave d s).mem = s.mem := by
  unfold selectWave; split <;> rfl
@[simp] theorem selectWave_delayRd (d : BitVec 7) (s : State) : (selectWave d s).delayRd = s.delayRd := by
  unfold selectWave; split <;> rfl
@[simp] theorem selectWave_delayWr (d : BitVec 7) (s : State) : (selectWave d s).delayWr = s.delayWr := by
  unfold selectWave; split <;> rfl
@[simp] theorem selectWave_dlenDirty (d : BitVec 7) (s : State) : (selectWave d s).dlenDirty = s.dlenDirty := by
  unfold selectWave; split <;> rfl
@[simp] theorem selectWave_visWr (d : BitVec 7) (s : State) : (selectWave d s).visWr = s.visWr := by
  unfold selectWave; split <;> rfl
@[simp] theorem selectWave_pend (d : BitVec 7) (s : State) : (selectWave d s).pend = s.pend := by
  unfold selectWave; split <;> rfl
@[simp] theorem selectWave_active (d : BitVec 7) (s : State) : (selectWave d s).active = s.active := by
  unfold selectWave; split <;> rfl
@[simp] theorem selectWave_run (d : BitVec 7) (s : State) : (selectWave d s).run = s.run := by
  unfold selectWave; split <;> rfl
@[simp] theorem selectWave_cfgErr (d : BitVec 7) (s : State) : (selectWave d s).cfgErr = s.cfgErr := by
  unfold selectWave; split <;> rfl
@[simp] theorem selectWave_busErr (d : BitVec 7) (s : State) : (selectWave d s).busErr = s.busErr := by
  unfold selectWave; split <;> rfl
@[simp] theorem selectWave_renderErr (d : BitVec 7) (s : State) : (selectWave d s).renderErr = s.renderErr := by
  unfold selectWave; split <;> rfl
@[simp] theorem selectWave_stopPending (d : BitVec 7) (s : State) : (selectWave d s).stopPending = s.stopPending := by
  unfold selectWave; split <;> rfl
@[simp] theorem selectWave_lastErr (d : BitVec 7) (s : State) : (selectWave d s).lastErr = s.lastErr := by
  unfold selectWave; split <;> rfl
@[simp] theorem selectWave_dropCount (d : BitVec 7) (s : State) : (selectWave d s).dropCount = s.dropCount := by
  unfold selectWave; split <;> rfl
@[simp] theorem selectWave_ignCount (d : BitVec 7) (s : State) : (selectWave d s).ignCount = s.ignCount := by
  unfold selectWave; split <;> rfl
@[simp] theorem selectWave_qovfCount (d : BitVec 7) (s : State) : (selectWave d s).qovfCount = s.qovfCount := by
  unfold selectWave; split <;> rfl
@[simp] theorem selectWave_frameCount (d : BitVec 7) (s : State) : (selectWave d s).frameCount = s.frameCount := by
  unfold selectWave; split <;> rfl
@[simp] theorem selectWave_framesLeft (d : BitVec 7) (s : State) : (selectWave d s).framesLeft = s.framesLeft := by
  unfold selectWave; split <;> rfl
@[simp] theorem selectWave_frameIdx (d : BitVec 7) (s : State) : (selectWave d s).frameIdx = s.frameIdx := by
  unfold selectWave; split <;> rfl
@[simp] theorem selectWave_host (d : BitVec 7) (s : State) : (selectWave d s).host = s.host := by
  unfold selectWave; split <;> rfl
@[simp] theorem selectWave_out (d : BitVec 7) (s : State) : (selectWave d s).out = s.out := by
  unfold selectWave; split <;> rfl
@[simp] theorem selectWave_rdata (d : BitVec 7) (s : State) : (selectWave d s).rdata = s.rdata := by
  unfold selectWave; split <;> rfl
@[simp] theorem selectWave_draws (d : BitVec 7) (s : State) : (selectWave d s).draws = s.draws := by
  unfold selectWave; split <;> rfl

/-! ## selectLayer -/

@[simp] theorem selectLayer_params (d : BitVec 7) (s : State) : (selectLayer d s).params = s.params := by
  unfold selectLayer; split <;> rfl
@[simp] theorem selectLayer_voices (d : BitVec 7) (s : State) : (selectLayer d s).voices = s.voices := by
  unfold selectLayer; split <;> rfl
@[simp] theorem selectLayer_waveSel (d : BitVec 7) (s : State) : (selectLayer d s).waveSel = s.waveSel := by
  unfold selectLayer; split <;> rfl
@[simp] theorem selectLayer_queue (d : BitVec 7) (s : State) : (selectLayer d s).queue = s.queue := by
  unfold selectLayer; split <;> rfl
@[simp] theorem selectLayer_mem (d : BitVec 7) (s : State) : (selectLayer d s).mem = s.mem := by
  unfold selectLayer; split <;> rfl
@[simp] theorem selectLayer_delayRd (d : BitVec 7) (s : State) : (selectLayer d s).delayRd = s.delayRd := by
  unfold selectLayer; split <;> rfl
@[simp] theorem selectLayer_delayWr (d : BitVec 7) (s : State) : (selectLayer d s).delayWr = s.delayWr := by
  unfold selectLayer; split <;> rfl
@[simp] theorem selectLayer_dlenDirty (d : BitVec 7) (s : State) : (selectLayer d s).dlenDirty = s.dlenDirty := by
  unfold selectLayer; split <;> rfl
@[simp] theorem selectLayer_visWr (d : BitVec 7) (s : State) : (selectLayer d s).visWr = s.visWr := by
  unfold selectLayer; split <;> rfl
@[simp] theorem selectLayer_pend (d : BitVec 7) (s : State) : (selectLayer d s).pend = s.pend := by
  unfold selectLayer; split <;> rfl
@[simp] theorem selectLayer_active (d : BitVec 7) (s : State) : (selectLayer d s).active = s.active := by
  unfold selectLayer; split <;> rfl
@[simp] theorem selectLayer_run (d : BitVec 7) (s : State) : (selectLayer d s).run = s.run := by
  unfold selectLayer; split <;> rfl
@[simp] theorem selectLayer_cfgErr (d : BitVec 7) (s : State) : (selectLayer d s).cfgErr = s.cfgErr := by
  unfold selectLayer; split <;> rfl
@[simp] theorem selectLayer_busErr (d : BitVec 7) (s : State) : (selectLayer d s).busErr = s.busErr := by
  unfold selectLayer; split <;> rfl
@[simp] theorem selectLayer_renderErr (d : BitVec 7) (s : State) : (selectLayer d s).renderErr = s.renderErr := by
  unfold selectLayer; split <;> rfl
@[simp] theorem selectLayer_stopPending (d : BitVec 7) (s : State) : (selectLayer d s).stopPending = s.stopPending := by
  unfold selectLayer; split <;> rfl
@[simp] theorem selectLayer_lastErr (d : BitVec 7) (s : State) : (selectLayer d s).lastErr = s.lastErr := by
  unfold selectLayer; split <;> rfl
@[simp] theorem selectLayer_dropCount (d : BitVec 7) (s : State) : (selectLayer d s).dropCount = s.dropCount := by
  unfold selectLayer; split <;> rfl
@[simp] theorem selectLayer_ignCount (d : BitVec 7) (s : State) : (selectLayer d s).ignCount = s.ignCount := by
  unfold selectLayer; split <;> rfl
@[simp] theorem selectLayer_qovfCount (d : BitVec 7) (s : State) : (selectLayer d s).qovfCount = s.qovfCount := by
  unfold selectLayer; split <;> rfl
@[simp] theorem selectLayer_frameCount (d : BitVec 7) (s : State) : (selectLayer d s).frameCount = s.frameCount := by
  unfold selectLayer; split <;> rfl
@[simp] theorem selectLayer_framesLeft (d : BitVec 7) (s : State) : (selectLayer d s).framesLeft = s.framesLeft := by
  unfold selectLayer; split <;> rfl
@[simp] theorem selectLayer_frameIdx (d : BitVec 7) (s : State) : (selectLayer d s).frameIdx = s.frameIdx := by
  unfold selectLayer; split <;> rfl
@[simp] theorem selectLayer_host (d : BitVec 7) (s : State) : (selectLayer d s).host = s.host := by
  unfold selectLayer; split <;> rfl
@[simp] theorem selectLayer_out (d : BitVec 7) (s : State) : (selectLayer d s).out = s.out := by
  unfold selectLayer; split <;> rfl
@[simp] theorem selectLayer_rdata (d : BitVec 7) (s : State) : (selectLayer d s).rdata = s.rdata := by
  unfold selectLayer; split <;> rfl
@[simp] theorem selectLayer_draws (d : BitVec 7) (s : State) : (selectLayer d s).draws = s.draws := by
  unfold selectLayer; split <;> rfl

end Sys2Proof.Machine
end

