-- ==== Sys2Proof/Laws/Ops.lean ====
section
/-!
SUPPORT. For each shared operation, what it can do, once: the register file of the configuration, the queue, the
allocator, the boundary, and the parts of a frame.
-/

namespace Sys2Proof.Machine

/-! ## Configuration registers -/

@[simp] theorem Regs.getF_setF_same (R : Regs) (r : FReg) (x : F32) : (R.setF r x).getF r = x := by cases r <;> rfl

theorem Regs.getF_setF_other (R : Regs) {r r' : FReg} (x : F32) (h : r' ≠ r) : (R.setF r x).getF r' = R.getF r' := by
  cases r <;> cases r' <;> first | rfl | exact absurd rfl h

@[simp] theorem Regs.iregWord_setF (R : Regs) (r : FReg) (x : F32) (n : IReg) : iregWord (R.setF r x) n = iregWord R n := by
  cases r <;> rfl

@[simp] theorem Regs.presets_setF (R : Regs) (r : FReg) (x : F32) : (R.setF r x).presets = R.presets := by cases r <;> rfl

@[simp] theorem Regs.mode_setF (R : Regs) (r : FReg) (x : F32) : (R.setF r x).mode = R.mode := by cases r <;> rfl

@[simp] theorem Regs.sampleRate_setF (R : Regs) (r : FReg) (x : F32) : (R.setF r x).sampleRate = R.sampleRate := by
  cases r <;> rfl

@[simp] theorem Regs.channels_setF (R : Regs) (r : FReg) (x : F32) : (R.setF r x).channels = R.channels := by
  cases r <;> rfl

@[simp] theorem Regs.delayLen_setF (R : Regs) (r : FReg) (x : F32) : (R.setF r x).delayLen = R.delayLen := by
  cases r <;> rfl

@[simp] theorem Regs.quantBits_setF (R : Regs) (r : FReg) (x : F32) : (R.setF r x).quantBits = R.quantBits := by
  cases r <;> rfl

@[simp] theorem Regs.thresholds_setF (R : Regs) (r : FReg) (x : F32) :
    (R.setF r x).tLo = R.tLo ∧ (R.setF r x).tHi = R.tHi := by
  cases r <;> exact ⟨rfl, rfl⟩

@[simp] theorem WaveSpec.get_set_same (W : WaveSpec) (f : PField) (x : F32) : (W.set f x).get f = x := by cases f <;> rfl

theorem WaveSpec.get_set_other (W : WaveSpec) {f g : PField} (x : F32) (h : g ≠ f) : (W.set f x).get g = W.get g := by
  cases f <;> cases g <;> first | rfl | exact absurd rfl h

@[simp] theorem writtenPreset_count (o : Nat) (f : PField) (w : Word) (Q : Preset) :
    (writtenPreset o f w Q).count = Q.count := rfl

@[simp] theorem writtenPreset_length (o : Nat) (f : PField) (w : Word) (Q : Preset) :
    (writtenPreset o f w Q).slots.length = Q.slots.length := by
  simp [writtenPreset]

/-! ## Selection -/

/-- A clamped value is one of the three. -/
theorem fclamp_cases (x lo hi : F32) : fclamp x lo hi = x ∨ fclamp x lo hi = lo ∨ fclamp x lo hi = hi := by
  unfold fclamp fmin fmax
  split <;> split <;> simp

/-! ## The allocator -/

/-- A Note-On with a target. -/
theorem noteOn_some {k vel : BitVec 7} {s : State} {v : Nat} (h : noteTarget s k = some v) :
    noteOn k vel s =
      { setVoice v (initVoice s.params s.active s.waveSel s.layerSel s.draws k vel (s.voice v)) s with
        draws := s.draws + s.params.oscMax } := by
  unfold noteOn
  rw [h]

/-- A Note-On without a target. -/
theorem noteOn_none {k vel : BitVec 7} {s : State} (h : noteTarget s k = none) : noteOn k vel s = countDrop s := by
  unfold noteOn
  rw [h]

@[simp] theorem noteOn_voices_length (k vel : BitVec 7) (s : State) :
    (noteOn k vel s).voices.length = s.voices.length := by
  unfold noteOn
  split <;> simp

@[simp] theorem initVoice_oscs_length (P : Params) (R : Regs) (w : WaveKind) (l n : Nat) (k vel : BitVec 7) (v : Voice) :
    (initVoice P R w l n k vel v).oscs.length = P.oscMax := by
  simp [initVoice]

/-- The slots of an initialized voice. -/
theorem initVoice_osc (P : Params) (R : Regs) (w : WaveKind) (l n : Nat) (k vel : BitVec 7) (v : Voice) {o : Nat}
    (h : o < P.oscMax) : (initVoice P R w l n k vel v).osc o =
      initOsc w ((R.preset l).slot o) (drawPhase (n + o)) (v.osc 0).envValue := by
  unfold Voice.osc
  simp [initVoice, List.getD_eq_getElem?_getD, h]
  rfl

/-! ## The boundary -/

@[simp] theorem drain_zero (s : State) : drain 0 s = s := rfl

theorem drain_nil (n : Nat) {s : State} (h : s.queue = []) : drain n s = s := by
  cases n with
  | zero => rfl
  | succ n => unfold drain; rw [h]

theorem drain_cons (n : Nat) {s : State} {e : EventWord} {q : List EventWord} (h : s.queue = e :: q) :
    drain (n + 1) s = drain n (applyEvent (decodeEvent s.params e) (withQueue q s)) := by
  conv_lhs => unfold drain
  rw [h]

@[simp] theorem applyEvent_params (e : Event) (s : State) : (applyEvent e s).params = s.params := by
  cases e <;> simp [applyEvent]

@[simp] theorem applyEvent_queue (e : Event) (s : State) : (applyEvent e s).queue = s.queue := by
  cases e <;> simp [applyEvent]

@[simp] theorem applyEvent_active (e : Event) (s : State) : (applyEvent e s).active = s.active := by
  cases e <;> simp [applyEvent]

@[simp] theorem applyEvent_pend (e : Event) (s : State) : (applyEvent e s).pend = s.pend := by
  cases e <;> simp [applyEvent]

@[simp] theorem applyEvent_mem (e : Event) (s : State) : (applyEvent e s).mem = s.mem := by
  cases e <;> simp [applyEvent]

@[simp] theorem applyEvent_voices_length (e : Event) (s : State) :
    (applyEvent e s).voices.length = s.voices.length := by
  cases e <;> simp [applyEvent]

/-- A property that every event keeps, taken with the event off the queue, is kept by a drain. -/
theorem drain_induction {Q : State → Prop} (hq : ∀ s q, Q s → Q (withQueue q s))
    (he : ∀ s e, Q s → Q (applyEvent e s)) (n : Nat) (s : State) (h : Q s) : Q (drain n s) := by
  induction n generalizing s with
  | zero => exact h
  | succ n ih =>
    cases hs : s.queue with
    | nil => rw [drain_nil _ hs]; exact h
    | cons e q => rw [drain_cons _ hs]; exact ih _ (he _ _ (hq _ _ h))

/-! ## A frame -/

@[simp] theorem layerSum_length (R : Regs) (b c : F32) (n : Nat) (os : List Osc) (acc : F32) :
    (layerSum R b c n os acc).2.length = os.length := by
  induction n generalizing os acc with
  | zero => rfl
  | succ n ih =>
    cases os with
    | nil => rfl
    | cons o os => simp [layerSum, ih]

@[simp] theorem mixVoices_length (P : Params) (R : Regs) (vs : List Voice) (m : F32 × F32) :
    (mixVoices P R vs m).2.length = vs.length := by
  induction vs generalizing m with
  | nil => rfl
  | cons v vs ih => unfold mixVoices; split <;> simp [ih]

/-- The state after DELAY_STEP: the memory and the two cursors change. -/
theorem delayStep_state (x : F32) (s : State) : (delayStep x s).2 =
    { s with
      mem := memWrite s.mem .dly s.delayWr (delayStep x s).1
      delayRd := (s.delayRd + 1) % s.params.delayCap
      delayWr := (s.delayWr + 1) % s.params.delayCap } := rfl

/-- OUTPUT with the delay active. -/
theorem output_active {x : F32} {s : State} (h : s.active.delayActive = true) :
    output x s = (quantStage s.active (delayStep x s).1, (delayStep x s).2) := by
  unfold output
  rw [if_pos h]

/-- OUTPUT with the delay bypassed. -/
theorem output_bypass {x : F32} {s : State} (h : s.active.delayActive = false) :
    output x s = (quantStage s.active (tanh x), s) := by
  unfold output
  rw [if_neg (by simp [h])]

theorem channelSample_zero (x : F32) (s : State) :
    channelSample 0 x s = visStep (output x s).1 (emit (output x s).1 (output x s).2) := rfl

theorem channelSample_succ (ch : Nat) (x : F32) (s : State) :
    channelSample (ch + 1) x s = emit (output x s).1 (output x s).2 := rfl

/-- A frame in its four parts. -/
theorem frameStep_eq (s : State) : frameStep s =
    let t := countFrame (channelSamples s.active.channels.toNat 0 (mix s).1 (mix s).2.1 (mix s).2.2)
    if t.framesLeft = 0 then renderDone t else t := rfl

end Sys2Proof.Machine
end

