-- ==== Sys2Proof/Laws/PerInstr.lean ====
section
/-!
SUPPORT. The family TableRow: the word of every instruction matches the row of opcode_table.json that bears its
mnemonic.  The masks and match values are copied from the table.
-/

namespace Sys2Proof.Laws.TableRow

/-- The patterns `(mask, match)` of a BUS53 instruction's row; none for an event. -/
def busRows : Instr → List (BusWord × BusWord)
  | .busMisaligned _ _ _ => [(0x300000000, 0x100000000), (0x300000000, 0x200000000), (0x300000000, 0x300000000)]
  | .rd _ => [(0x10000000000000, 0x0)]
  | .ctrlSoftReset _ => [(0x1FFFFF00000002, 0x10001000000002)]
  | .ctrlStart _ => [(0x1FFFFF00000003, 0x10001000000001)]
  | .ctrlStop _ => [(0x1FFFFF00000003, 0x10001000000000)]
  | .statusW1c _ => [(0x1FFFFF00000000, 0x10001400000000)]
  | .evPush _ => [(0x1FFFFF00000000, 0x10001800000000)]
  | .render _ => [(0x1FFFFF00000000, 0x10001C00000000)]
  | .cntClear _ _ => [(0x1FFFFF00000000, 0x10002000000000), (0x1FFFFF00000000, 0x10002400000000), (0x1FFFFF00000000, 0x10002800000000)]
  | .wrSampleRate _ => [(0x1FFFFF00000000, 0x10010000000000)]
  | .wrChannels _ => [(0x1FFFFF00000000, 0x10010400000000)]
  | .wrMode _ => [(0x1FFFFF00000000, 0x10010800000000)]
  | .wrDelayLen _ => [(0x1FFFFF00000000, 0x10012400000000)]
  | .wrQuantBits _ => [(0x1FFFFF00000000, 0x10013C00000000)]
  | .wrVelT _ => [(0x1FFFFF00000000, 0x10016400000000)]
  | .wrF32MasterVolume _ => [(0x1FFFFF00000000, 0x10010C00000000)]
  | .wrF32VoiceGain _ => [(0x1FFFFF00000000, 0x10011000000000)]
  | .wrF32OscGain _ => [(0x1FFFFF00000000, 0x10011400000000)]
  | .wrF32DelayGain _ => [(0x1FFFFF00000000, 0x10011800000000)]
  | .wrF32DelayFeedback _ => [(0x1FFFFF00000000, 0x10011C00000000)]
  | .wrF32DelayMix _ => [(0x1FFFFF00000000, 0x10012000000000)]
  | .wrF32VibRate _ => [(0x1FFFFF00000000, 0x10012800000000)]
  | .wrF32VibDepth _ => [(0x1FFFFF00000000, 0x10012C00000000)]
  | .wrF32VibOnset _ => [(0x1FFFFF00000000, 0x10013000000000)]
  | .wrF32TremRate _ => [(0x1FFFFF00000000, 0x10013400000000)]
  | .wrF32TremDepth _ => [(0x1FFFFF00000000, 0x10013800000000)]
  | .wrF32AttackS _ => [(0x1FFFFF00000000, 0x10014000000000)]
  | .wrF32DecayS _ => [(0x1FFFFF00000000, 0x10014400000000)]
  | .wrF32Sustain _ => [(0x1FFFFF00000000, 0x10014800000000)]
  | .wrF32ReleaseS _ => [(0x1FFFFF00000000, 0x10014C00000000)]
  | .wrF32EnvFloor _ => [(0x1FFFFF00000000, 0x10015000000000)]
  | .wrF32FiltAFast _ => [(0x1FFFFF00000000, 0x10015400000000)]
  | .wrF32FiltASlow _ => [(0x1FFFFF00000000, 0x10015800000000)]
  | .wrF32DcBlock _ => [(0x1FFFFF00000000, 0x10015C00000000)]
  | .wrF32Pan _ => [(0x1FFFFF00000000, 0x10016000000000)]
  | .wrF32VelG0 _ => [(0x1FFFFF00000000, 0x10016800000000)]
  | .wrF32VelG1 _ => [(0x1FFFFF00000000, 0x10016C00000000)]
  | .wrF32VelG2 _ => [(0x1FFFFF00000000, 0x10017000000000)]
  | .wrF32VelG3 _ => [(0x1FFFFF00000000, 0x10017400000000)]
  | .wrF32VelGmin _ => [(0x1FFFFF00000000, 0x10017800000000)]
  | .wrF32VelGmax _ => [(0x1FFFFF00000000, 0x10017C00000000)]
  | .wrPresetCount _ _ => [(0x1FF8FF00000000, 0x10080000000000)]
  | .wrPresetOct _ _ _ => [(0x1FF88F00000000, 0x10088000000000)]
  | .wrPresetDuty _ _ _ => [(0x1FF88F00000000, 0x10088400000000)]
  | .wrPresetVol _ _ _ => [(0x1FF88F00000000, 0x10088800000000)]
  | .wrPresetDetune _ _ _ => [(0x1FF88F00000000, 0x10088C00000000)]
  | .wrIgnored _ _ => [(0x10000300000000, 0x10000000000000)]
  | .evReserved _ => []
  | .evBaddata _ => []
  | .noteOff _ _ _ => []
  | .noteOn _ _ _ => []
  | .ccWave _ _ => []
  | .ccLayer _ _ => []
  | .ccOther _ _ _ => []

/-- The patterns `(mask, match)` of an EVENT24 instruction's row; none for a transaction. -/
def eventRows : Instr → List (EventWord × EventWord)
  | .busMisaligned _ _ _ => []
  | .rd _ => []
  | .ctrlSoftReset _ => []
  | .ctrlStart _ => []
  | .ctrlStop _ => []
  | .statusW1c _ => []
  | .evPush _ => []
  | .render _ => []
  | .cntClear _ _ => []
  | .wrSampleRate _ => []
  | .wrChannels _ => []
  | .wrMode _ => []
  | .wrDelayLen _ => []
  | .wrQuantBits _ => []
  | .wrVelT _ => []
  | .wrF32MasterVolume _ => []
  | .wrF32VoiceGain _ => []
  | .wrF32OscGain _ => []
  | .wrF32DelayGain _ => []
  | .wrF32DelayFeedback _ => []
  | .wrF32DelayMix _ => []
  | .wrF32VibRate _ => []
  | .wrF32VibDepth _ => []
  | .wrF32VibOnset _ => []
  | .wrF32TremRate _ => []
  | .wrF32TremDepth _ => []
  | .wrF32AttackS _ => []
  | .wrF32DecayS _ => []
  | .wrF32Sustain _ => []
  | .wrF32ReleaseS _ => []
  | .wrF32EnvFloor _ => []
  | .wrF32FiltAFast _ => []
  | .wrF32FiltASlow _ => []
  | .wrF32DcBlock _ => []
  | .wrF32Pan _ => []
  | .wrF32VelG0 _ => []
  | .wrF32VelG1 _ => []
  | .wrF32VelG2 _ => []
  | .wrF32VelG3 _ => []
  | .wrF32VelGmin _ => []
  | .wrF32VelGmax _ => []
  | .wrPresetCount _ _ => []
  | .wrPresetOct _ _ _ => []
  | .wrPresetDuty _ _ _ => []
  | .wrPresetVol _ _ _ => []
  | .wrPresetDetune _ _ _ => []
  | .wrIgnored _ _ => []
  | .evReserved _ => [(0xF00000, 0x000000), (0xF00000, 0x100000), (0xF00000, 0x200000), (0xF00000, 0x300000), (0xF00000, 0x400000), (0xF00000, 0x500000),
      (0xF00000, 0x600000), (0xF00000, 0x700000), (0xF00000, 0xA00000), (0xF00000, 0xC00000), (0xF00000, 0xD00000), (0xF00000, 0xE00000), (0xF00000, 0xF00000)]
  | .evBaddata _ => [(0xF08000, 0x808000), (0xF00080, 0x800080), (0xF08000, 0x908000), (0xF00080, 0x900080), (0xF08000, 0xB08000), (0xF00080, 0xB00080)]
  | .noteOff _ _ _ => [(0xF08080, 0x800000)]
  | .noteOn _ _ _ => [(0xF08080, 0x900000)]
  | .ccWave _ _ => [(0xF0FF80, 0xB01400)]
  | .ccLayer _ _ => [(0xF0FF80, 0xB01500)]
  | .ccOther _ _ _ => [(0xF08080, 0xB00000)]

/-- Whether a code matches one of the patterns of the instruction's row (30_encoding.md R210). -/
def Matches (i : Instr) : Code → Prop
  | .bus T => ∃ r ∈ busRows i, T &&& r.1 = r.2
  | .event e => ∃ r ∈ eventRows i, e &&& r.1 = r.2

/-- The statement of the family. -/
def Statement (i : Instr) : Prop := i.wellFormed Params.reference = true → Matches i (encode Params.reference i)

/-! ## Masks on words put together from fields -/

/-- A 53-bit word from its head, RW and ADDR, and its data. -/
def word (h : BitVec 21) (d : Word) : BusWord := h ++ d

/-- RW and ADDR. -/
def head (rw : Bool) (a : BusAddr) : BitVec 21 := (if rw then 1#1 else 0#1) ++ a

theorem busWord_eq (rw : Bool) (a : BusAddr) (w : Word) : busWord rw a w = word (head rw a) w := rfl

theorem word_and (h hm : BitVec 21) (d dm : Word) : word h d &&& word hm dm = word (h &&& hm) (d &&& dm) := by
  unfold word
  exact BitVec.and_append

theorem head_and (rw : Bool) (a am : BusAddr) (b : Bool) :
    head rw a &&& head b am = head (rw && b) (a &&& am) := by
  unfold head
  rw [BitVec.and_append]
  cases rw <;> cases b <;> rfl

theorem word_and_three (w : Word) : w &&& 3#32 = (w.extractLsb' 0 2).setWidth 32 := by
  apply BitVec.eq_of_toNat_eq
  have := Nat.and_two_pow_sub_one_eq_mod w.toNat 2
  simp at this ⊢
  omega

theorem addr_and_three (a : BusAddr) : a &&& 3#20 = BitVec.ofNat 20 (a.toNat % 4) := by
  apply BitVec.eq_of_toNat_eq
  have := Nat.and_two_pow_sub_one_eq_mod a.toNat 2
  simp at this ⊢
  omega

/-! ## How an instruction comes to match its row -/

theorem of_bus {i : Instr} {T : BusWord} (r : BusWord × BusWord) (h : encode Params.reference i = .bus T)
    (hr : r ∈ busRows i) (hm : T &&& r.1 = r.2) : Matches i (encode Params.reference i) := by
  rw [h]
  exact ⟨r, hr, hm⟩

theorem of_event {i : Instr} {e : EventWord} (r : EventWord × EventWord) (h : encode Params.reference i = .event e)
    (hr : r ∈ eventRows i) (hm : e &&& r.1 = r.2) : Matches i (encode Params.reference i) := by
  rw [h]
  exact ⟨r, hr, hm⟩

/-- A write to a fixed address, whose row fixes RW and ADDR and no data bit. -/
theorem fixed {i : Instr} {a : BusAddr} {w : Word} {m : BusWord} (h : encode Params.reference i = .bus (busWord true a w))
    (hr : (0x1FFFFF00000000, m) ∈ busRows i) (hm : word (head true a) 0#32 = m) : Statement i := fun _ => by
  refine of_bus _ h hr ?_
  rw [busWord_eq, show (0x1FFFFF00000000 : BusWord) = word (BitVec.allOnes 21) 0#32 from by decide, word_and,
    BitVec.and_allOnes, BitVec.and_zero, hm]

/-- A write to CTRL whose row fixes the two low data bits. -/
theorem ctrl {i : Instr} {w : Word} {m d : BusWord} (c : BitVec 2) (h : encode Params.reference i = .bus (busWord true 0x10 w))
    (hw : w.extractLsb' 0 2 &&& c = d.extractLsb' 0 2) (hd : word (head true 0x10) ((d.extractLsb' 0 2).setWidth 32) = m)
    (hr : (word (BitVec.allOnes 21) (c.setWidth 32), m) ∈ busRows i) : Matches i (encode Params.reference i) := by
  refine of_bus _ h hr ?_
  have hc : w &&& c.setWidth 32 = (w.extractLsb' 0 2 &&& c).setWidth 32 := by
    have h3 : ∀ c : BitVec 2, c.setWidth 32 = 3#32 &&& c.setWidth 32 := by decide
    rw [h3 c, ← BitVec.and_assoc, word_and_three, BitVec.setWidth_and]
  rw [busWord_eq, word_and, BitVec.and_allOnes, hc, hw, hd]

/-- An event word from its six fields. -/
def fields (t ch : BitVec 4) (h1 : BitVec 1) (d1 : BitVec 7) (h2 : BitVec 1) (d2 : BitVec 7) : EventWord :=
  ((t ++ ch) ++ (h1 ++ d1)) ++ (h2 ++ d2)

theorem fields_and (t ch t' ch' : BitVec 4) (h1 h2 h1' h2' : BitVec 1) (d1 d2 d1' d2' : BitVec 7) :
    fields t ch h1 d1 h2 d2 &&& fields t' ch' h1' d1' h2' d2' =
      fields (t &&& t') (ch &&& ch') (h1 &&& h1') (d1 &&& d1') (h2 &&& h2') (d2 &&& d2') := by
  unfold fields
  exact BitVec.and_append.trans (congrArg₂ (· ++ ·) (BitVec.and_append.trans (congrArg₂ (· ++ ·) BitVec.and_append
    BitVec.and_append)) BitVec.and_append)

/-- An event word whose row fixes TYPE, D1H and D2H. -/
theorem event_and (t ch : BitVec 4) (d1 d2 : BitVec 7) : eventWord t ch d1 d2 &&& 0xF08080 = eventWord t 0 0 0 := by
  refine (fields_and t ch (BitVec.allOnes 4) 0#4 0 0 1 1 d1 d2 0#7 0#7).trans ?_
  rw [BitVec.and_allOnes, BitVec.and_zero, BitVec.and_zero, BitVec.and_zero]
  rfl

/-- An event word whose row fixes DATA1 too. -/
theorem event_and_data1 (t ch : BitVec 4) (d1 d2 : BitVec 7) :
    eventWord t ch d1 d2 &&& 0xF0FF80 = eventWord t 0 d1 0 := by
  refine (fields_and t ch (BitVec.allOnes 4) 0#4 0 0 1 1 d1 d2 (BitVec.allOnes 7) 0#7).trans ?_
  rw [BitVec.and_allOnes, BitVec.and_zero, BitVec.and_allOnes, BitVec.and_zero]
  rfl

theorem split_word (e : BitVec (4 + 20)) : e = e.extractLsb' 20 4 ++ e.extractLsb' 0 20 := by
  ext i hi
  simp only [BitVec.getElem_append, BitVec.getElem_extractLsb']
  split
  · simp [BitVec.getLsbD_eq_getElem hi]
  · rw [show 20 + (i - 20) = i by omega, BitVec.getLsbD_eq_getElem hi]

theorem event_type (e : EventWord) : e &&& 0xF00000 = e.extractLsb' 20 4 ++ 0#20 := by
  refine (congrArg (· &&& (BitVec.allOnes 4 ++ 0#20)) (split_word e)).trans ?_
  exact BitVec.and_append.trans (by rw [BitVec.and_allOnes, BitVec.and_zero])

theorem event_bit (e : EventWord) (n : Nat) (h : e.getLsbD n = true) (hn : n < 24) :
    e &&& BitVec.twoPow 24 n = BitVec.twoPow 24 n := by
  ext i hi
  simp only [BitVec.getElem_and, BitVec.getElem_twoPow]
  by_cases hin : i = n
  · subst hin; simp [← BitVec.getLsbD_eq_getElem hi, h]
  · simp [hin]

/-! ## The instructions -/

theorem busMisaligned (rw : Bool) (addr : BusAddr) (w : Word) : Statement (.busMisaligned rw addr w) := fun h => by
  simp only [Instr.wellFormed, aligned, Bool.and_eq_true, Bool.not_eq_true', beq_eq_false_iff_ne] at h
  have ha : addr.toNat % 4 = 1 ∨ addr.toNat % 4 = 2 ∨ addr.toNat % 4 = 3 := by omega
  have key : ∀ n, addr.toNat % 4 = n → busWord rw addr w &&& 0x300000000 = word (head false (BitVec.ofNat 20 n)) 0#32 := by
    rintro n rfl
    rw [busWord_eq, show (0x300000000 : BusWord) = word (head false 3#20) 0#32 from by decide, word_and, head_and,
      BitVec.and_zero, addr_and_three, Bool.and_false]
  rcases ha with ha | ha | ha
  · exact of_bus (0x300000000, 0x100000000) rfl (by simp [busRows]) ((key 1 ha).trans (by decide))
  · exact of_bus (0x300000000, 0x200000000) rfl (by simp [busRows]) ((key 2 ha).trans (by decide))
  · exact of_bus (0x300000000, 0x300000000) rfl (by simp [busRows]) ((key 3 ha).trans (by decide))

theorem rd (addr : BusAddr) : Statement (.rd addr) := fun _ => by
  refine of_bus _ rfl (List.mem_singleton.2 rfl) ?_
  rw [busWord_eq, show (0x10000000000000 : BusWord) = word (head true 0#20) 0#32 from by decide, word_and, head_and,
    BitVec.and_zero, BitVec.and_zero]
  decide

theorem ctrlSoftReset (w : Word) : Statement (.ctrlSoftReset w) := fun h => by
  have h : w.getLsbD 1 = true := h
  refine ctrl (d := 2) (m := 0x10001000000002) 2 rfl ?_ (by decide) (List.mem_singleton.2 (by decide))
  ext i hi
  match i, hi with
  | 0, _ => simp
  | 1, _ => simpa using h

theorem ctrlStart (w : Word) : Statement (.ctrlStart w) := fun h => by
  simp only [Instr.wellFormed, Bool.and_eq_true, Bool.not_eq_true'] at h
  refine ctrl (d := 1) (m := 0x10001000000001) 3 rfl ?_ (by decide) (List.mem_singleton.2 (by decide))
  ext i hi
  match i, hi with
  | 0, _ => simpa using h.2
  | 1, _ => simpa using h.1

theorem ctrlStop (w : Word) : Statement (.ctrlStop w) := fun h => by
  simp only [Instr.wellFormed, Bool.and_eq_true, Bool.not_eq_true'] at h
  refine ctrl (d := 0) (m := 0x10001000000000) 3 rfl ?_ (by decide) (List.mem_singleton.2 (by decide))
  ext i hi
  match i, hi with
  | 0, _ => simpa using h.2
  | 1, _ => simpa using h.1

theorem statusW1c (w : Word) : Statement (.statusW1c w) := 
  fixed rfl (List.mem_singleton.2 rfl) (by decide)

theorem evPush (w : Word) : Statement (.evPush w) := 
  fixed rfl (List.mem_singleton.2 rfl) (by decide)

theorem render (w : Word) : Statement (.render w) := 
  fixed rfl (List.mem_singleton.2 rfl) (by decide)

theorem cntClear (c : Counter) (w : Word) : Statement (.cntClear c w) := by
  cases c
  · exact fixed (m := 0x10002000000000) rfl (by simp [busRows]) (by decide)
  · exact fixed (m := 0x10002400000000) rfl (by simp [busRows]) (by decide)
  · exact fixed (m := 0x10002800000000) rfl (by simp [busRows]) (by decide)

theorem wrSampleRate (w : Word) : Statement (.wrSampleRate w) := 
  fixed rfl (List.mem_singleton.2 rfl) (by decide)

theorem wrChannels (w : Word) : Statement (.wrChannels w) := 
  fixed rfl (List.mem_singleton.2 rfl) (by decide)

theorem wrMode (w : Word) : Statement (.wrMode w) := 
  fixed rfl (List.mem_singleton.2 rfl) (by decide)

theorem wrDelayLen (w : Word) : Statement (.wrDelayLen w) := 
  fixed rfl (List.mem_singleton.2 rfl) (by decide)

theorem wrQuantBits (w : Word) : Statement (.wrQuantBits w) := 
  fixed rfl (List.mem_singleton.2 rfl) (by decide)

theorem wrVelT (w : Word) : Statement (.wrVelT w) := 
  fixed rfl (List.mem_singleton.2 rfl) (by decide)

theorem wrF32MasterVolume (w : Word) : Statement (.wrF32MasterVolume w) := 
  fixed rfl (List.mem_singleton.2 rfl) (by decide)

theorem wrF32VoiceGain (w : Word) : Statement (.wrF32VoiceGain w) := 
  fixed rfl (List.mem_singleton.2 rfl) (by decide)

theorem wrF32OscGain (w : Word) : Statement (.wrF32OscGain w) := 
  fixed rfl (List.mem_singleton.2 rfl) (by decide)

theorem wrF32DelayGain (w : Word) : Statement (.wrF32DelayGain w) := 
  fixed rfl (List.mem_singleton.2 rfl) (by decide)

theorem wrF32DelayFeedback (w : Word) : Statement (.wrF32DelayFeedback w) := 
  fixed rfl (List.mem_singleton.2 rfl) (by decide)

theorem wrF32DelayMix (w : Word) : Statement (.wrF32DelayMix w) := 
  fixed rfl (List.mem_singleton.2 rfl) (by decide)

theorem wrF32VibRate (w : Word) : Statement (.wrF32VibRate w) := 
  fixed rfl (List.mem_singleton.2 rfl) (by decide)

theorem wrF32VibDepth (w : Word) : Statement (.wrF32VibDepth w) := 
  fixed rfl (List.mem_singleton.2 rfl) (by decide)

theorem wrF32VibOnset (w : Word) : Statement (.wrF32VibOnset w) := 
  fixed rfl (List.mem_singleton.2 rfl) (by decide)

theorem wrF32TremRate (w : Word) : Statement (.wrF32TremRate w) := 
  fixed rfl (List.mem_singleton.2 rfl) (by decide)

theorem wrF32TremDepth (w : Word) : Statement (.wrF32TremDepth w) := 
  fixed rfl (List.mem_singleton.2 rfl) (by decide)

theorem wrF32AttackS (w : Word) : Statement (.wrF32AttackS w) := 
  fixed rfl (List.mem_singleton.2 rfl) (by decide)

theorem wrF32DecayS (w : Word) : Statement (.wrF32DecayS w) := 
  fixed rfl (List.mem_singleton.2 rfl) (by decide)

theorem wrF32Sustain (w : Word) : Statement (.wrF32Sustain w) := 
  fixed rfl (List.mem_singleton.2 rfl) (by decide)

theorem wrF32ReleaseS (w : Word) : Statement (.wrF32ReleaseS w) := 
  fixed rfl (List.mem_singleton.2 rfl) (by decide)

theorem wrF32EnvFloor (w : Word) : Statement (.wrF32EnvFloor w) := 
  fixed rfl (List.mem_singleton.2 rfl) (by decide)

theorem wrF32FiltAFast (w : Word) : Statement (.wrF32FiltAFast w) := 
  fixed rfl (List.mem_singleton.2 rfl) (by decide)

theorem wrF32FiltASlow (w : Word) : Statement (.wrF32FiltASlow w) := 
  fixed rfl (List.mem_singleton.2 rfl) (by decide)

theorem wrF32DcBlock (w : Word) : Statement (.wrF32DcBlock w) := 
  fixed rfl (List.mem_singleton.2 rfl) (by decide)

theorem wrF32Pan (w : Word) : Statement (.wrF32Pan w) := 
  fixed rfl (List.mem_singleton.2 rfl) (by decide)

theorem wrF32VelG0 (w : Word) : Statement (.wrF32VelG0 w) := 
  fixed rfl (List.mem_singleton.2 rfl) (by decide)

theorem wrF32VelG1 (w : Word) : Statement (.wrF32VelG1 w) := 
  fixed rfl (List.mem_singleton.2 rfl) (by decide)

theorem wrF32VelG2 (w : Word) : Statement (.wrF32VelG2 w) := 
  fixed rfl (List.mem_singleton.2 rfl) (by decide)

theorem wrF32VelG3 (w : Word) : Statement (.wrF32VelG3 w) := 
  fixed rfl (List.mem_singleton.2 rfl) (by decide)

theorem wrF32VelGmin (w : Word) : Statement (.wrF32VelGmin w) := 
  fixed rfl (List.mem_singleton.2 rfl) (by decide)

theorem wrF32VelGmax (w : Word) : Statement (.wrF32VelGmax w) := 
  fixed rfl (List.mem_singleton.2 rfl) (by decide)

theorem wrPresetCount (p : BitVec 3) (w : Word) : Statement (.wrPresetCount p w) := fun h => by
  clear h
  refine of_bus _ rfl (List.mem_singleton.2 rfl) ?_
  rw [busWord_eq, show (0x1FF8FF00000000 : BusWord) = word (head true 0xFF8FF) 0#32 from by decide, word_and, head_and,
    BitVec.and_zero]
  revert p
  decide

theorem wrPresetOct (p o : BitVec 3) (w : Word) : Statement (.wrPresetOct p o w) := fun h => by
  clear h
  refine of_bus _ rfl (List.mem_singleton.2 rfl) ?_
  rw [busWord_eq, show (0x1FF88F00000000 : BusWord) = word (head true 0xFF88F) 0#32 from by decide, word_and, head_and,
    BitVec.and_zero]
  revert p o
  decide

theorem wrPresetDuty (p o : BitVec 3) (w : Word) : Statement (.wrPresetDuty p o w) := fun h => by
  clear h
  refine of_bus _ rfl (List.mem_singleton.2 rfl) ?_
  rw [busWord_eq, show (0x1FF88F00000000 : BusWord) = word (head true 0xFF88F) 0#32 from by decide, word_and, head_and,
    BitVec.and_zero]
  revert p o
  decide

theorem wrPresetVol (p o : BitVec 3) (w : Word) : Statement (.wrPresetVol p o w) := fun h => by
  clear h
  refine of_bus _ rfl (List.mem_singleton.2 rfl) ?_
  rw [busWord_eq, show (0x1FF88F00000000 : BusWord) = word (head true 0xFF88F) 0#32 from by decide, word_and, head_and,
    BitVec.and_zero]
  revert p o
  decide

theorem wrPresetDetune (p o : BitVec 3) (w : Word) : Statement (.wrPresetDetune p o w) := fun h => by
  clear h
  refine of_bus _ rfl (List.mem_singleton.2 rfl) ?_
  rw [busWord_eq, show (0x1FF88F00000000 : BusWord) = word (head true 0xFF88F) 0#32 from by decide, word_and, head_and,
    BitVec.and_zero]
  revert p o
  decide

theorem wrIgnored (addr : BusAddr) (w : Word) : Statement (.wrIgnored addr w) := fun h => by
  simp only [Instr.wellFormed, aligned, Bool.and_eq_true, beq_iff_eq] at h
  refine of_bus _ rfl (List.mem_singleton.2 rfl) ?_
  rw [busWord_eq, show (0x10000300000000 : BusWord) = word (head true 3#20) 0#32 from by decide, word_and, head_and,
    BitVec.and_zero, addr_and_three, h.1]
  decide

theorem evReserved (e : EventWord) : Statement (.evReserved e) := fun h => by
  refine of_event (0xF00000, e.extractLsb' 20 4 ++ 0#20) rfl ?_ (event_type e)
  have h : knownType (e.extractLsb' 20 4) = false := by simpa [Instr.wellFormed] using h
  revert h
  generalize e.extractLsb' 20 4 = t
  revert t
  simp only [eventRows]
  decide

theorem evBaddata (e : EventWord) : Statement (.evBaddata e) := fun h => by
  simp only [Instr.wellFormed, Bool.and_eq_true, Bool.or_eq_true] at h
  obtain ⟨ht, hb⟩ := h
  rcases hb with hb | hb
  · refine of_event (0xF08000, (e.extractLsb' 20 4 ++ 0#20) ||| BitVec.twoPow 24 15) rfl ?_ ?_
    · revert ht
      generalize e.extractLsb' 20 4 = t
      revert t
      simp only [eventRows]
      decide
    · rw [show (0xF08000 : EventWord) = 0xF00000 ||| BitVec.twoPow 24 15 from by decide, BitVec.and_or_distrib_left, event_type,
        event_bit e 15 hb (by decide)]
  · refine of_event (0xF00080, (e.extractLsb' 20 4 ++ 0#20) ||| BitVec.twoPow 24 7) rfl ?_ ?_
    · revert ht
      generalize e.extractLsb' 20 4 = t
      revert t
      simp only [eventRows]
      decide
    · rw [show (0xF00080 : EventWord) = 0xF00000 ||| BitVec.twoPow 24 7 from by decide, BitVec.and_or_distrib_left, event_type,
        event_bit e 7 hb (by decide)]

theorem noteOff (ch : BitVec 4) (k rv : BitVec 7) : Statement (.noteOff ch k rv) := fun _ =>
  of_event _ rfl (List.mem_singleton.2 rfl) ((event_and _ _ _ _).trans (by decide))

theorem noteOn (ch : BitVec 4) (k vel : BitVec 7) : Statement (.noteOn ch k vel) := fun _ =>
  of_event _ rfl (List.mem_singleton.2 rfl) ((event_and _ _ _ _).trans (by decide))

theorem ccWave (ch : BitVec 4) (d : BitVec 7) : Statement (.ccWave ch d) := fun _ =>
  of_event _ rfl (List.mem_singleton.2 rfl) ((event_and_data1 _ _ _ _).trans (by decide))

theorem ccLayer (ch : BitVec 4) (d : BitVec 7) : Statement (.ccLayer ch d) := fun _ =>
  of_event _ rfl (List.mem_singleton.2 rfl) ((event_and_data1 _ _ _ _).trans (by decide))

theorem ccOther (ch : BitVec 4) (ctl d : BitVec 7) : Statement (.ccOther ch ctl d) := fun _ =>
  of_event _ rfl (List.mem_singleton.2 rfl) ((event_and _ _ _ _).trans (by decide))

end Sys2Proof.Laws.TableRow
end

