-- ==== Sys2Proof/Tests/Slice0.lean ====
section
/-!
SUPPORT. Tests: ill-formed instructions, words written out from the encodings, one step of each instruction with the
result the spec gives (rule or vector named), and a witness for the hypotheses of every statement.
-/

namespace Sys2Proof.Tests

-- One theorem at a time: checked in parallel, these proofs ask for more thread stacks than check.sh allows.
set_option Elab.async false

open Sys2Proof.Machine

/-! ## Helpers -/

/-- The reference instance. -/
def ref : Params := Params.reference

/-- The reference instance after reset. -/
def s0 : State := State.reset

/-- The same, started. -/
def running : State := { s0 with run := true }

/-- The same, with two frames of a render left. -/
def rendering : State := { running with framesLeft := 2 }

/-- A voice that sounds: key 60 held, every envelope in Attack at `e`. -/
def heldVoice60 (e : F32) : Voice :=
  { resetVoice ref with active := true, key := some 60, baseFreq := noteFreq 60,
                        oscs := List.replicate 4 { resetOsc with envState := .attack, envValue := e } }

/-- The reset state with voice 0 held. -/
def oneHeld : State := { s0 with voices := heldVoice60 fHalf :: List.replicate 7 (resetVoice ref) }

/-- The reset state with every voice held on key 60. -/
def allHeld : State := { s0 with voices := List.replicate 8 (heldVoice60 f0) }

/-- A field of the next state; none for a fault or a refusal. -/
def after {α : Type} (o : Host.Outcome State Fault Refusal) (f : State → α) : Option α :=
  match o with
  | .next t => some (f t)
  | .fault _ => none
  | .refused _ => none

/-- The word read at an address after an instruction. -/
def readBack (i : Instr) (s : State) (a : Nat) : Option Word := after (exec i s) fun t => locWord t (locate t.params (BitVec.ofNat 20 a))

/-! ## Ill-formed instructions -/

theorem test_illformed_misaligned_aligned : Instr.wellFormed ref (.busMisaligned true 0x10 0) = false := by decide
theorem test_illformed_misaligned_read_data : Instr.wellFormed ref (.busMisaligned false 0x11 1) = false := by decide
theorem test_illformed_rd_misaligned : Instr.wellFormed ref (.rd 0x12) = false := by decide
theorem test_illformed_soft_reset_bit : Instr.wellFormed ref (.ctrlSoftReset 1) = false := by decide
theorem test_illformed_start_bit1 : Instr.wellFormed ref (.ctrlStart 3) = false := by decide
theorem test_illformed_start_bit0 : Instr.wellFormed ref (.ctrlStart 4) = false := by decide
theorem test_illformed_stop_bit1 : Instr.wellFormed ref (.ctrlStop 2) = false := by decide
theorem test_illformed_stop_bit0 : Instr.wellFormed ref (.ctrlStop 1) = false := by decide
theorem test_illformed_preset_count : Instr.wellFormed ref (.wrPresetCount 2 0) = false := by decide
theorem test_illformed_preset_oct_p : Instr.wellFormed ref (.wrPresetOct 2 0 0) = false := by decide
theorem test_illformed_preset_oct_o : Instr.wellFormed ref (.wrPresetOct 0 4 0) = false := by decide
theorem test_illformed_preset_duty_p : Instr.wellFormed ref (.wrPresetDuty 7 0 0) = false := by decide
theorem test_illformed_preset_duty_o : Instr.wellFormed ref (.wrPresetDuty 0 7 0) = false := by decide
theorem test_illformed_preset_vol_p : Instr.wellFormed ref (.wrPresetVol 3 0 0) = false := by decide
theorem test_illformed_preset_vol_o : Instr.wellFormed ref (.wrPresetVol 1 5 0) = false := by decide
theorem test_illformed_preset_detune_p : Instr.wellFormed ref (.wrPresetDetune 2 3 0) = false := by decide
theorem test_illformed_preset_detune_o : Instr.wellFormed ref (.wrPresetDetune 1 4 0) = false := by decide
theorem test_illformed_ignored_writable : Instr.wellFormed ref (.wrIgnored 0x17C 0) = false := by decide
theorem test_illformed_ignored_preset : Instr.wellFormed ref (.wrIgnored 0x9BC 0) = false := by decide
theorem test_illformed_ignored_misaligned : Instr.wellFormed ref (.wrIgnored 0x2 0) = false := by decide
theorem test_illformed_reserved_type : Instr.wellFormed ref (.evReserved 0x903C64) = false := by decide
theorem test_illformed_baddata_type : Instr.wellFormed ref (.evBaddata 0xE08000) = false := by decide
theorem test_illformed_baddata_bits : Instr.wellFormed ref (.evBaddata 0x903C64) = false := by decide
theorem test_illformed_other_wave : Instr.wellFormed ref (.ccOther 0 20 0) = false := by decide
theorem test_illformed_other_layer : Instr.wellFormed ref (.ccOther 0 21 0) = false := by decide

theorem test_wellformed_preset_edge : Instr.wellFormed ref (.wrPresetDetune 1 3 0) = true := by decide

/-! ## Decoding (the words of 95_test_vectors.md V1.1 and V1.3, and words put together from 30_encoding.md R206, R210) -/

/-- Whether every word of a list decodes to the instruction beside it. -/
def decodes (l : List (BusWord × Instr)) : Bool := l.all fun p => decodeBus ref p.1 == p.2

/-- The same for event words. -/
def decodesEvent (l : List (EventWord × Instr)) : Bool := l.all fun p => decode ref (.event p.1) == p.2

theorem test_decode_control : decodes
    [(0x10001000000001, .ctrlStart 1), (0x10001000000000, .ctrlStop 0), (0x10001000000002, .ctrlSoftReset 2),
     (0x10001000000003, .ctrlSoftReset 3), (0x100010FFFFFFFD, .ctrlStart 0xFFFFFFFD), (0x1000140000001C, .statusW1c 0x1C),
     (0x10001800903C64, .evPush 0x903C64), (0x10001C00010080, .render 0x10080), (0x10002000000000, .cntClear .drop 0),
     (0x10002400000007, .cntClear .ign 7), (0x10002800000000, .cntClear .qovf 0)] = true := by decide +kernel

theorem test_decode_other : decodes
    [(0x10000000000005, .wrIgnored 0 5), (0x10004000000005, .wrIgnored 0x40 5), (0x10002C00000001, .wrIgnored 0x2C 1),
     (0x1008C040000000, .wrIgnored 0x8C0 0x40000000), (0x100A0000000003, .wrIgnored 0xA00 3),
     (0x00000000000000, .rd 0), (0x04000000000000, .rd 0x40000), (0x000004FFFFFFFF, .rd 4),
     (0x10001100000001, .busMisaligned true 0x11 1), (0x00001600000009, .busMisaligned false 0x16 0)] = true := by
  decide +kernel

theorem test_decode_integer : decodes
    [(0x1001000000AC44, .wrSampleRate 0xAC44), (0x10010400000002, .wrChannels 2), (0x10010800000007, .wrMode 7),
     (0x10012400000064, .wrDelayLen 100), (0x10013C00000008, .wrQuantBits 8), (0x10016400005010, .wrVelT 0x5010)] = true := by
  decide +kernel

theorem test_decode_preset : decodes
    [(0x10090000000003, .wrPresetCount 1 3), (0x10088040000000, .wrPresetOct 0 0 0x40000000),
     (0x1008943F000000, .wrPresetDuty 0 1 0x3F000000), (0x1009A83F800000, .wrPresetVol 1 2 0x3F800000),
     (0x1009BC3F7EF9DB, .wrPresetDetune 1 3 0x3F7EF9DB)] = true := by decide +kernel

theorem test_decode_float_first : decodes
    [(0x10010C3F000000, .wrF32MasterVolume 0x3F000000), (0x1001103F000000, .wrF32VoiceGain 0x3F000000),
     (0x1001143F000000, .wrF32OscGain 0x3F000000), (0x1001183F000000, .wrF32DelayGain 0x3F000000),
     (0x10011C3F000000, .wrF32DelayFeedback 0x3F000000), (0x1001203F000000, .wrF32DelayMix 0x3F000000),
     (0x1001283F000000, .wrF32VibRate 0x3F000000), (0x10012C3F000000, .wrF32VibDepth 0x3F000000),
     (0x1001303F000000, .wrF32VibOnset 0x3F000000), (0x1001343F000000, .wrF32TremRate 0x3F000000),
     (0x1001383F000000, .wrF32TremDepth 0x3F000000), (0x1001403F000000, .wrF32AttackS 0x3F000000),
     (0x1001443F000000, .wrF32DecayS 0x3F000000)] = true := by decide +kernel

theorem test_decode_float_last : decodes
    [(0x1001483F000000, .wrF32Sustain 0x3F000000), (0x10014C3F000000, .wrF32ReleaseS 0x3F000000),
     (0x1001503F000000, .wrF32EnvFloor 0x3F000000), (0x1001543F000000, .wrF32FiltAFast 0x3F000000),
     (0x1001583F000000, .wrF32FiltASlow 0x3F000000), (0x10015C3F000000, .wrF32DcBlock 0x3F000000),
     (0x1001603F000000, .wrF32Pan 0x3F000000), (0x1001683F000000, .wrF32VelG0 0x3F000000),
     (0x10016C3F000000, .wrF32VelG1 0x3F000000), (0x1001703F000000, .wrF32VelG2 0x3F000000),
     (0x1001743F000000, .wrF32VelG3 0x3F000000), (0x1001783F000000, .wrF32VelGmin 0x3F000000),
     (0x10017C3F000000, .wrF32VelGmax 0x3F000000)] = true := by decide +kernel

theorem test_decode_event : decodesEvent
    [(0x903C64, .noteOn 0 60 100), (0x9F3C00, .noteOn 15 60 0), (0x803C40, .noteOff 0 60 64), (0xB01405, .ccWave 0 5),
     (0xB21501, .ccLayer 2 1), (0xB00764, .ccOther 0 7 100), (0xE04000, .evReserved 0xE04000),
     (0x000000, .evReserved 0), (0x90BC64, .evBaddata 0x90BC64), (0xB01485, .evBaddata 0xB01485)] = true := by
  decide +kernel

theorem test_decode_table_word :
    decodeTableWord 56 0x10001000000001 = some (.ctrlStart 1) ∧ decodeTableWord 24 0x903C64 = some (.noteOn 0 60 100) ∧
    decodeTableWord 24 0x1000000 = none := by decide +kernel

/-! ## One step of each instruction -/

/-- 40_host_commands.md R251, example. -/
theorem test_rd_id : after (exec (.rd 0) s0) State.rdata = some 0x53475341 := by decide +kernel

/-- 40_host_commands.md R251, example. -/
theorem test_rd_status : after (exec (.rd 0x14) s0) State.rdata = some 0x40 := by decide +kernel

/-- V2.4. -/
theorem test_rd_cfg : [0x4, 0x8, 0xC].map (fun a => after (exec (.rd a) s0) State.rdata) =
    [some 0x00402408, some 0x00008000, some 0x10000400] := by decide +kernel

/-- 20_memory.md R154, 10_state.md R113. -/
theorem test_misaligned_write : after (exec (.busMisaligned true 0x11 1) s0) statusWord = some 0x20000048 := by decide +kernel

/-- 20_memory.md R154. -/
theorem test_misaligned_read : after (exec (.busMisaligned false 0x16 0) { s0 with rdata := 7 }) State.rdata = some 0 := by decide +kernel

/-- V2.5. -/
theorem test_soft_reset : after (exec (.ctrlSoftReset 2) { rendering with ignCount := 5 }) (fun u => (statusWord u, u.ignCount)) =
    some (0x40, 0) := by decide +kernel

/-- V2.5. -/
theorem test_start : after (exec (.ctrlStart 1) s0) statusWord = some 0x41 := by decide +kernel

/-- 40_host_commands.md R256, example. -/
theorem test_start_channels : readBack (.ctrlStart 1) { s0 with pend := { s0.pend with channels := 3 } } 0x14 = some 0x02000044 := by decide +kernel

/-- V2.5. -/
theorem test_stop : after (exec (.ctrlStop 0) running) statusWord = some 0x40 := by decide +kernel

/-- V2.6. -/
theorem test_stop_busy : after (exec (.ctrlStop 0) rendering) statusWord = some 0xC3 := by decide +kernel

/-- V2.5. -/
theorem test_w1c : after (exec (.statusW1c 0x10) { s0 with renderErr := true, cfgErr := true, lastErr := 0x10 }) statusWord =
    some 0x10000044 := by decide +kernel

/-- V2.5, 40_host_commands.md R260. -/
theorem test_push : after (exec (.evPush 0xFF903C64) s0) (fun u => (u.queue, statusWord u)) = some ([0x903C64], 0x100) := by decide +kernel

/-- V2.7. -/
theorem test_push_full : after (exec (.evPush 0) { s0 with queue := List.replicate 64 0 }) (fun u => (u.qovfCount, statusWord u)) =
    some (1, 0x4020) := by decide +kernel

/-- V2.5, 40_host_commands.md R262. -/
theorem test_render_stopped : after (exec (.render 1) s0) statusWord = some 0x10000050 := by decide +kernel

/-- 40_host_commands.md R262, 10_state.md R101. -/
theorem test_render : after (exec (.render 0x10080) { running with queue := [0xE04000], pend := { s0.pend with mode := 7 } })
    (fun u => (u.framesLeft, statusWord u, u.ignCount, u.active.mode)) = some (128, 0x43, 1, 7) := by decide +kernel

/-- 40_host_commands.md R254, example. -/
theorem test_counter_clear : after (exec (.cntClear .drop 0x1234) { s0 with dropCount := 9, ignCount := 8 }) (fun u => (u.dropCount, u.ignCount)) =
    some (0, 8) := by decide +kernel

/-- 40_host_commands.md R254: a clear during BUSY leaves 0 or 1 in a counter of the engine's, and 0 in QOVF_COUNT. -/
theorem test_counter_clear_busy : rendering.busy = true ∧
    (after (exec (.cntClear .ign 0) { rendering with ignCount := 9 }) fun u => (u.ignCount &&& 0xFFFFFFFE, u.draws)) =
      some (0, 1) ∧
    (after (exec (.cntClear .qovf 0) { rendering with qovfCount := 9 }) fun u => (u.qovfCount, u.draws)) = some (0, 0) := by
  refine ⟨by decide, ?_, by decide +kernel⟩
  obtain h | h := clearedCount_cases .ign { rendering with ignCount := 9 } <;>
    exact congrArg (fun n : Word => some (n &&& 0xFFFFFFFE, 1)) h

theorem witness_ClearCounterResult : rendering.busy = true ∧ s0.busy = false := by decide

/-- V2.3. -/
theorem test_sample_rate : readBack (.wrSampleRate 0xAC44) s0 0x100 = some 0xAC44 := by decide +kernel

/-- V2.3. -/
theorem test_sample_rate_locked : readBack (.wrSampleRate 0xAC44) running 0x100 = some 0xBB80 := by decide +kernel

/-- V2.3. -/
theorem test_channels : readBack (.wrChannels 2) s0 0x104 = some 2 := by decide +kernel

/-- V2.3. -/
theorem test_channels_locked : readBack (.wrChannels 2) running 0x104 = some 1 := by decide +kernel

/-- V2.3. -/
theorem test_mode : readBack (.wrMode 0xFFFFFFFF) s0 0x108 = some 7 := by decide +kernel

/-- V2.3. -/
theorem test_delay_len : after (exec (.wrDelayLen 0) s0) (fun u => (u.pend.delayLen, u.dlenDirty)) = some (1, true) := by decide +kernel

/-- V2.3. -/
theorem test_delay_len_high : readBack (.wrDelayLen 0xFFFFFFFF) s0 0x124 = some 0x8000 := by decide +kernel

/-- V2.3. -/
theorem test_quant_bits : readBack (.wrQuantBits 99) s0 0x13C = some 24 := by decide +kernel

/-- V2.3. -/
theorem test_vel_t : readBack (.wrVelT 0xFFFF5010) s0 0x164 = some 0x5010 := by decide +kernel

/-- V2.3. -/
theorem test_vel_t_ignored : readBack (.wrVelT 0x4040) s0 0x164 = some 0x6020 := by decide +kernel

/-- V2.1, and 10_state.md R102 (the legal range), R104 (+Inf stores its high end). -/
theorem test_float_first :
    readBack (.wrF32MasterVolume 0x41F00000) s0 0x10C = some 0x41800000 ∧
    readBack (.wrF32DcBlock 0x3F800000) s0 0x15C = some 0x3F7FFFFF ∧
    readBack (.wrF32Pan 0x3F000000) s0 0x160 = some 0x3E800000 ∧
    readBack (.wrF32VibOnset 0x4B800001) s0 0x130 = some 0x4B800000 ∧
    readBack (.wrF32Sustain 0x7FC00000) s0 0x148 = some 0x3F400000 ∧
    readBack (.wrF32DelayFeedback 0x3F8CCCCD) s0 0x11C = some 0x3F800000 ∧
    readBack (.wrF32VibDepth 0x46BB8000) s0 0x12C = some 0x46BB8000 ∧
    readBack (.wrF32AttackS 0x47800001) s0 0x140 = some 0x47800000 ∧
    readBack (.wrF32VoiceGain 0x7F800000) s0 0x110 = some 1098907648 ∧
    readBack (.wrF32OscGain 0x7F800000) s0 0x114 = some 1098907648 ∧
    readBack (.wrF32DelayGain 0x7F800000) s0 0x118 = some 1098907648 ∧
    readBack (.wrF32DelayMix 0x7F800000) s0 0x120 = some 1065353216 ∧
    readBack (.wrF32VibRate 0x7F800000) s0 0x128 = some 1148846080 := by decide +kernel

/-- 10_state.md R102 (the legal range), R104 (+Inf stores its high end). -/
theorem test_float_last :
    readBack (.wrF32TremRate 0x7F800000) s0 0x134 = some 1148846080 ∧
    readBack (.wrF32TremDepth 0x7F800000) s0 0x138 = some 1065353216 ∧
    readBack (.wrF32DecayS 0x7F800000) s0 0x144 = some 1199570944 ∧
    readBack (.wrF32ReleaseS 0x7F800000) s0 0x14C = some 1199570944 ∧
    readBack (.wrF32EnvFloor 0x7F800000) s0 0x150 = some 1065353216 ∧
    readBack (.wrF32FiltAFast 0x7F800000) s0 0x154 = some 1065353216 ∧
    readBack (.wrF32FiltASlow 0x7F800000) s0 0x158 = some 1065353216 ∧
    readBack (.wrF32VelG0 0x7F800000) s0 0x168 = some 1098907648 ∧
    readBack (.wrF32VelG1 0x7F800000) s0 0x16C = some 1098907648 ∧
    readBack (.wrF32VelG2 0x7F800000) s0 0x170 = some 1098907648 ∧
    readBack (.wrF32VelG3 0x7F800000) s0 0x174 = some 1098907648 ∧
    readBack (.wrF32VelGmin 0x7F800000) s0 0x178 = some 1098907648 ∧
    readBack (.wrF32VelGmax 0x7F800000) s0 0x17C = some 1098907648 := by decide +kernel

/-- V2.1. -/
theorem test_float_negative_zero : readBack (.wrF32MasterVolume 0x80000000) s0 0x10C = some 0 := by decide +kernel

/-- V2.2. -/
theorem test_preset_count : readBack (.wrPresetCount 0 9) s0 0x800 = some 4 := by decide +kernel

/-- V2.2. -/
theorem test_preset_oct : readBack (.wrPresetOct 0 0 0x3D000000) s0 0x880 = some 0x3D800000 := by decide +kernel

/-- V2.2. -/
theorem test_preset_duty : readBack (.wrPresetDuty 0 0 0xBF800000) s0 0x884 = some 0 := by decide +kernel

/-- V2.2. -/
theorem test_preset_vol : readBack (.wrPresetVol 0 0 0x41A00000) s0 0x888 = some 0x41800000 := by decide +kernel

/-- V2.2. -/
theorem test_preset_detune : readBack (.wrPresetDetune 0 0 0x3E800000) s0 0x88C = some 0x3F000000 := by decide +kernel

/-- V2.8. -/
theorem test_ignored : readBack (.wrIgnored 0x2C 5) { s0 with frameCount := 3 } 0x2C = some 3 := by decide +kernel

/-- 41_voice_allocator.md R320, example. -/
theorem test_ev_reserved : after (exec (.evReserved 0xE04000) s0) State.ignCount = some 1 := by decide +kernel

/-- 41_voice_allocator.md R320, V2.8. -/
theorem test_ev_baddata : after (exec (.evBaddata 0x90BC64) { s0 with ignCount := 0xFFFFFFFF }) State.ignCount = some 0 := by decide +kernel

/-- 41_voice_allocator.md R301, example. -/
theorem test_note_on : after (exec (.noteOn 0 60 100) s0) (fun u =>
    ((u.voice 0).active, (u.voice 0).key, (u.voice 0).baseFreq, (u.voice 0).amplitude, (u.voice 0).envState)) =
    some (true, some 60, 0x4382D013, 0x3FCC6319, .attack) := by decide +kernel

/-- 41_voice_allocator.md R304. -/
theorem test_note_on_full : after (exec (.noteOn 0 68 100) allHeld) (fun u => (u.dropCount, u.voices == allHeld.voices)) = some (1, true) := by decide +kernel

/-- 41_voice_allocator.md R310, 10_state.md R120. -/
theorem test_note_off : after (exec (.noteOff 0 60 0) oneHeld) (fun u => (vstatWord (u.voice 0), ((u.voice 0).osc 3).envValue)) =
    some (0x00103C26, fHalf) := by decide +kernel

/-- 41_voice_allocator.md R315, example. -/
theorem test_cc_wave : after (exec (.ccWave 0 5) s0) selWord = some 5 := by decide +kernel

/-- 41_voice_allocator.md R315. -/
theorem test_cc_wave_ignored : after (exec (.ccWave 0 7) { s0 with waveSel := .sawRaw }) selWord = some 2 := by decide +kernel

/-- 41_voice_allocator.md R316, example. -/
theorem test_cc_layer : after (exec (.ccLayer 0 1) s0) selWord = some 0x100 := by decide +kernel

/-- 41_voice_allocator.md R316, example. -/
theorem test_cc_layer_ignored : after (exec (.ccLayer 0 2) s0) selWord = some 0 := by decide +kernel

/-- 41_voice_allocator.md R317, example. -/
theorem test_cc_other : after (exec (.ccOther 0 7 100) s0) (fun u => (selWord u, u.ignCount)) = some (0, 0) := by decide +kernel

/-- 41_voice_allocator.md R300, R315. -/
theorem test_step_event : after (step (s0.withFetchWord 24 0xB01405)) (fun u => (u.waveSel, u.framesLeft)) = some (.sawPoly, 1) := by decide +kernel

/-- V2.5. -/
theorem test_step_txn : after (step (s0.withFetchWord 56 0x10001000000001)) statusWord = some 0x41 := by decide +kernel

/-! ## The arithmetic of one sample (examples of the rules) -/

/-- 42_oscillator.md R358, example. -/
theorem test_poly_square : polySquare 0x3E800000 0x3E000000 fHalf = 0x3F400000 := by decide +kernel

/-- 42_oscillator.md R359, example. -/
theorem test_saw_poly : fsub (rawSaw 0x3E000000) (polyBlep 0x3E800000 0x3E000000) = 0xBF000000 := by decide +kernel

/-- 42_oscillator.md R354, example. -/
theorem test_triangle : rawTriangle 0x3E000000 = fHalf := by decide +kernel

/-- 00_scope.md R20: a tie goes to the even significand. -/
theorem test_round_to_even : fadd f1 0x33800000 = f1 ∧ fadd 0x3F800001 0x33800000 = 0x3F800002 := by decide +kernel

/-- 43_envelope.md R421, example. -/
theorem test_attack : envStep { resetRegs ref with sampleRate := 8192, attackS := 0x3A800000 } .attack 0x3F600000 = (.decay, f1) := by decide +kernel

/-- 43_envelope.md R424, example. -/
theorem test_release : envStep { resetRegs ref with sampleRate := 8192, releaseS := 0x3A800000 } .release 0x3F400000 =
    (.release, 0x3F280000) := by decide +kernel

/-! ## Witnesses: states and operands that meet the hypotheses of each statement, clause by clause -/

theorem witness_params : ref.legal := by decide

theorem witness_DecodeEncode : ref.legal ∧ Instr.wellFormed ref (.wrPresetDetune 1 3 0x3F800000) = true ∧
    Instr.wellFormed ref (.wrIgnored 0x8C0 1) = true ∧ Instr.wellFormed ref (.busMisaligned false 0x3 0) = true ∧
    Instr.wellFormed ref (.ccOther 3 7 1) = true ∧ Instr.wellFormed ref (.evBaddata 0x908000) = true := by decide

theorem witness_EventDecoding :
    (fun e : EventWord => (e.extractLsb' 20 4, e.getLsbD 15, e.getLsbD 7, e.extractLsb' 8 7)) <$>
      [0xE04000, 0x90BC64, 0x803C40, 0x903C64, 0xB01405, 0xB01501, 0xB00764] =
    [(0xE, false, false, 0x40), (0x9, true, false, 0x3C), (0x8, false, false, 0x3C), (0x9, false, false, 0x3C),
     (0xB, false, false, ref.ccWaveNum), (0xB, false, false, ref.ccLayerNum), (0xB, false, false, 7)] := by decide

/-- Each window of the map at its last index. -/
theorem witness_AddressMapWindows :
    [0x900, 0x9BC, 0x10FC, 0x4EFC, 0x8FFC, 0x5FFFC].map (fun a => locate ref (BitVec.ofNat 20 a)) =
      [.presetCount 1, .presetField 1 3 .detune, .voice 7 7, .osc 7 3 15, .vis 1023, .dly 32767] := by decide +kernel

/-- Each window at the first index its parameter leaves out, with the last address of the unlisted ranges. -/
theorem witness_AddressMapWindows_unmapped :
    [0xA00, 0x904, 0x97C, 0x9C0, 0x1100, 0x3FFC, 0x5000, 0x4100, 0x7FFC, 0x9000, 0x3FFFC, 0x60000, 0xFFFFC, 0x40, 0xFC,
      0x180, 0x7FC].all (fun a => locate ref (BitVec.ofNat 20 a) = .unmapped) = true := by decide +kernel

theorem witness_StepRunsTransaction : ({ s0 with host := [.txn 0x10001000000001, .idle] } : State).host =
    .txn 0x10001000000001 :: [.idle] ∧ decode s0.params (.bus 0x10001000000001) = .ctrlStart 1 := by decide +kernel

theorem witness_StepRunsEngine : s0.host = [] ∧ ({ rendering with host := [.idle] } : State).host = .idle :: [] ∧
    0 < rendering.framesLeft := by decide

theorem witness_ResetResult : (0xFFFFFFFE : Word).getLsbD 1 = true ∧ ({ rendering with host := [.hardReset] } : State).host = .hardReset :: [] := by decide

theorem witness_ReadResult_exact : aligned 0x14 = true ∧ engineWritten (locate rendering.params 0x14) = false ∧
    aligned 0x5FFFC = true ∧ s0.busy = false := by decide +kernel

theorem witness_ReadResult_draw : aligned 0x5FFFC = true ∧ engineWritten (locate rendering.params 0x5FFFC) = true ∧
    rendering.busy = true := by decide +kernel

theorem witness_UnmappedAndReadOnly : [0x40, 0x2C, 0x1000, 0x4EFC, 0x8FFC, 0x5FFFC, 0x18, 0x1C].map
      (fun a => (aligned (BitVec.ofNat 20 a), locate ref (BitVec.ofNat 20 a))) =
    [(true, .unmapped), (true, .frameCount), (true, .voice 0 0), (true, .osc 7 3 15), (true, .vis 1023),
     (true, .dly 32767), (true, .event), (true, .renderReq)] := by decide +kernel

/-- The two RW words of a read and a write, for the two forms of R206's encoding. -/
theorem witness_EncodeDecode : ref.legal ∧ busRw 0x10001800903C64 = true ∧ busRw 0x000014FFFFFFFF = false := by decide

theorem witness_MalformedEvents : (0xE04000 : EventWord).extractLsb' 20 4 ∉ [0x8#4, 0x9#4, 0xB#4] ∧
    (0xB01485 : EventWord).extractLsb' 20 4 ∈ [0x8#4, 0x9#4, 0xB#4] ∧ (0xB01485 : EventWord).getLsbD 7 = true := by decide

theorem witness_StatusLayouts : ({ s0 with queue := List.replicate 255 0 } : State).queue.length ≤ 255 ∧
    (heldVoice60 f0).preset < 16 ∧ (heldVoice60 f0).count < 16 ∧ 3 < (heldVoice60 f0).oscs.length ∧
    7 < s0.voices.length ∧ 1 < s0.pend.presets.length ∧ 3 < (s0.pend.preset 1).slots.length := by decide +kernel

/-- A voice of each class (10_state.md R55): held, releasing with and without a key, idle, silent. -/
theorem witness_StatusLayouts_classes :
    let voice := fun (a : Bool) (k : Option (BitVec 7)) (e : EnvState) =>
      ({ resetVoice ref with active := a, key := k, oscs := [{ resetOsc with envState := e }] } : Voice).voiceClass
    [voice true (some 60) .release, voice false (some 60) .release, voice false none .release, voice false none .off,
      voice false (some 60) .off] = [.held, .releasing, .releasing, .idle, .silent] := by decide

theorem witness_MisalignedTransaction : (0x11 : BusAddr).toNat % 4 ≠ 0 ∧ (0xFFFFF : BusAddr).toNat % 4 ≠ 0 := by decide

/-- One pending configuration for each clause of START: legal, at both ends of the rate range; a bad rate; bad channels
with a good rate. -/
theorem witness_StartResult : running.run = true ∧ s0.run = false ∧
    [(8000, 1), (192000, 2), (7999, 1), (192001, 0), (8000, 3)].map
      (fun p => (legalRate { s0 with pend := { s0.pend with sampleRate := p.1, channels := p.2 } },
        legalChannels { s0 with pend := { s0.pend with sampleRate := p.1, channels := p.2 } })) =
      [(true, true), (true, true), (false, true), (false, false), (true, false)] ∧
    (1 : Word).getLsbD 1 = false ∧ (1 : Word).getLsbD 0 = true := by decide +kernel

theorem witness_StopResult : (0 : Word).getLsbD 1 = false ∧ (0 : Word).getLsbD 0 = false ∧ s0.run = false ∧
    rendering.run = true ∧ rendering.busy = true ∧ running.run = true ∧ running.busy = false := by decide

theorem witness_PushResult : ({ s0 with queue := List.replicate 63 0 } : State).queue.length < s0.params.cmdqDepth ∧
    ¬ ({ s0 with queue := List.replicate 64 0 } : State).queue.length < s0.params.cmdqDepth := by decide +kernel

/-- The frame counts 0, 1, NMAX and NMAX + 1. -/
theorem witness_Render : s0.run = false ∧ rendering.run = true ∧ rendering.busy = true ∧ running.run = true ∧
    running.busy = false ∧
    [0x10000, 1, 4096, 4097].map (fun w : Word => ((w.extractLsb' 0 16).toNat, decide ((w.extractLsb' 0 16).toNat ≤ ref.nmax))) =
      [(0, true), (1, true), (4096, true), (4097, false)] := by decide +kernel

theorem witness_RegisterReads : s0.params.legal ∧ s0.layerSel < s0.params.numPresets ∧ s0.framesLeft = 0 ∧
    0 < rendering.framesLeft ∧ 1 < s0.params.numPresets ∧ 3 < s0.params.oscMax ∧ 7 < s0.params.voiceMax ∧
    1023 < s0.params.visCap ∧ 32767 < s0.params.delayCap := by decide

/-- Mono and stereo, the delay active or not, the quantizer on or off, and a ring in which channel 1 reads what channel 0
has written. -/
theorem witness_FrameOutput : s0.params.legal ∧ s0.mem.wf = true ∧ s0.visWr < s0.params.visCap ∧
    s0.delayRd < s0.params.delayCap ∧ s0.delayWr < s0.params.delayCap ∧ s0.active.channels = 1 ∧
    (0b010#3).getLsbD 1 = true ∧ ({ s0 with delayWr := 1 } : State).delayWr = (s0.delayRd + 1) % s0.params.delayCap ∧
    s0.params.delayCap ≠ 1 := by decide

theorem witness_StoredFloatInRange : InRange (fregLo .dcBlock) (fregHi .dcBlock) 0x3F7FFFFF ∧
    InRange (pfieldLo .detune) (pfieldHi .detune) 0x3F000000 := by decide

theorem witness_WriteInteger : (1 : BitVec 3).toNat < s0.pend.presets.length := by decide

theorem witness_WritePresetField : (1 : BitVec 3).toNat < s0.pend.presets.length ∧
    (3 : BitVec 3).toNat < (s0.pend.preset 1).slots.length ∧ (1 : BitVec 3).toNat < s0.params.numPresets ∧
    (3 : BitVec 3).toNat < s0.params.oscMax := by decide

/-- The active copy changes at an accepted RENDER, a soft reset and a hardware reset. -/
theorem witness_ActiveCopyChanges :
    let s := { running with pend := { running.pend with mode := 7 }, active := { running.active with channels := 2 } }
    [HostInput.txn 0x10001C00000001, .txn 0x10001000000002, .hardReset].map
      (fun h => (after (step { s with host := [h] }) State.active).map (decide <| · ≠ s.active)) =
      [some true, some true, some true] := by decide +kernel

/-- The hypotheses of the exhausted Note-On: no voice free, and the key not held or RETRIG_NEW = 1. -/
theorem witness_NoteOnExhausted :
    (∀ v ∈ allHeld.voices, ¬ (v.active = true ∧ v.key = some 61)) ∧
    (∀ v ∈ allHeld.voices, ¬ (v.active = false ∧ v.envState = .off)) ∧
    ({ allHeld with active := { allHeld.active with mode := 4 } } : State).active.retrigNew = true := by decide +kernel

/-- The three ways a Note-On finds its voice: the held one, the first free one for a key not held, and the first free
one for a held key with RETRIG_NEW = 1. -/
theorem witness_NoteOnInitializes :
    oneHeld.active.retrigNew = false ∧ 0 < oneHeld.voices.length ∧
    ((oneHeld.voice 0).active = true ∧ (oneHeld.voice 0).key = some 60) ∧
    (∀ u, u < oneHeld.voices.length → ¬ ((oneHeld.voice u).active = true ∧ (oneHeld.voice u).key = some 61)) ∧
    ((oneHeld.voice 1).active = false ∧ (oneHeld.voice 1).envState = .off) ∧
    (∀ u, u < 1 → ¬ ((oneHeld.voice u).active = false ∧ (oneHeld.voice u).envState = .off)) ∧
    ({ oneHeld with active := { oneHeld.active with mode := 4 } } : State).active.retrigNew = true := by decide +kernel

theorem witness_NoteOffReleases : 1 < oneHeld.voices.length ∧
    (oneHeld.voice 0).active = true ∧ (oneHeld.voice 0).key = some 60 ∧ (oneHeld.voice 1).active = false ∧
    3 < (oneHeld.voice 0).oscs.length := by decide

theorem witness_ControlChanges : ref.ccLayerNum ≠ ref.ccWaveNum ∧ 7 ≠ ref.ccWaveNum ∧ 7 ≠ ref.ccLayerNum ∧ (6 : BitVec 7).toNat ≤ 6 ∧ ¬ (7 : BitVec 7).toNat ≤ 6 ∧
    [WaveKind.sine, .pulseRaw, .sawRaw, .triangleRaw, .pulsePoly, .sawPoly, .trianglePoly][(6 : BitVec 7).toNat]? =
      some .trianglePoly ∧ (1 : BitVec 7).toNat < s0.params.numPresets ∧ ¬ (2 : BitVec 7).toNat < s0.params.numPresets := by decide

theorem witness_VelocityCurve : fIsNaN (resetRegs ref).velGmin = false ∧ fIsNaN (resetRegs ref).velGmax = false ∧
    fle (resetRegs ref).velGmin (resetRegs ref).velGmax = true ∧
    fle ({ resetRegs ref with velGmin := f4 } : Regs).velGmin (resetRegs ref).velGmax = false := by decide +kernel

/-- The two sides of each threshold, and the ends. -/
theorem witness_VelocityCurve_segments :
    let lo := (resetRegs ref).tLo.toNat
    let hi := (resetRegs ref).tHi.toNat
    0 ≤ lo ∧ 32 ≤ lo ∧ (lo < 33 ∧ 33 ≤ hi) ∧ (lo < 96 ∧ 96 ≤ hi) ∧ (lo < 97 ∧ hi < 97) ∧ lo < 127 ∧ hi < 127 := by decide

/-- The reset configuration is legal. -/
theorem witness_RegsLegal : RegsLegal ref (resetRegs ref) where
  floats r := by cases r <;> decide
  delayLen := by decide
  quantBits := by decide
  thresholds := by decide
  presets := by decide
  preset Q hQ := by
    obtain rfl := List.eq_of_mem_replicate hQ
    exact
      { count := by decide
        slots := by decide
        fields := fun W hW f => by
          obtain rfl := List.eq_of_mem_replicate hW
          cases f <;> decide }

/-- The started block with one voice held, some inputs to come and `n` frames of a render left. -/
def sounding (hs : List HostInput) (n : Nat) : State :=
  { running with voices := oneHeld.voices, host := hs, framesLeft := n }

/-- A property of the held voice and of the reset voice holds of the voices of `sounding`. -/
theorem sounding_voices {p : Voice → Prop} (hs : List HostInput) (n : Nat) (h₁ : p (heldVoice60 fHalf))
    (h₂ : p (resetVoice ref)) : ∀ v ∈ (sounding hs n).voices, p v := by
  intro v hv
  rcases List.mem_cons.mp hv with rfl | hv
  · exact h₁
  · obtain rfl := List.eq_of_mem_replicate hv
    exact h₂

theorem witness_VoiceLegal_held : VoiceLegal ref (heldVoice60 fHalf) where
  oscs := by decide
  amplitude := by decide
  count := by decide
  preset := by decide
  baseFreq := by decide
  inactive h := by exact absurd h (by decide)
  specs o ho := by
    obtain rfl := List.eq_of_mem_replicate ho
    decide

theorem witness_VoiceLegal_reset : VoiceLegal ref (resetVoice ref) where
  oscs := by decide
  amplitude := by decide
  count := by decide
  preset := by decide
  baseFreq := by decide
  inactive _ := by decide
  specs o ho := by
    obtain rfl := List.eq_of_mem_replicate ho
    decide

theorem witness_StartLegal : StartLegal ref (resetRegs ref) := ⟨by decide, by decide⟩

/-- A legal state that is started, idle or in a render, with one voice held. -/
theorem witness_Legal (hs : List HostInput) (n : Nat) (hn : n ≤ 4096) : Legal (sounding hs n) where
  params := witness_params
  voiceCount := rfl
  voices := sounding_voices hs n witness_VoiceLegal_held witness_VoiceLegal_reset
  layerSel := (by decide : 0 < 2)
  queue := (by decide : 0 ≤ 64)
  mem := rfl
  cursors := (by decide : 0 < 32768 ∧ 0 < 32768 ∧ 0 < 1024)
  pend := witness_RegsLegal
  active := witness_RegsLegal
  run _ := witness_StartLegal
  busy _ := ⟨rfl, witness_StartLegal⟩
  stopPending h := by cases h
  progress := (by omega : 0 + n ≤ 4096)
  lastErr := (by decide : (0 : BitVec 8) ∈ lastErrCodes)

theorem witness_VoiceTuned {st : EnvState} {e : F32} (v : Voice) (hc : v.count = 1)
    (h : IsPhase (v.osc 0).phase ∧ IsPhase (v.osc 0).lfoPhase ∧ IsLevel (v.osc 0).envValue)
    (hs : (v.osc 0).envState = st) (he : (v.osc 0).envValue = e) (hoff : st = .off → e = f0) : VoiceTuned v := by
  intro o ho
  obtain rfl : o = 0 := by omega
  exact ⟨h.1, h.2.1, h.2.2, fun h => he.trans (hoff (hs ▸ h)), rfl, rfl⟩

theorem witness_Tuned (hs : List HostInput) (n : Nat) : Tuned (sounding hs n) :=
  sounding_voices hs n
    (witness_VoiceTuned (st := .attack) (e := fHalf) _ rfl (by decide) rfl rfl (fun h => by cases h))
    (witness_VoiceTuned (st := .off) (e := f0) _ rfl (by decide) rfl rfl (fun _ => rfl))

theorem witness_Bounded (hs : List HostInput) (n : Nat) : Bounded (sounding hs n) where
  oscs := sounding_voices hs n
    (fun o ho => by
      obtain rfl := List.eq_of_mem_replicate ho
      exact ⟨by decide, by decide, by decide, by decide, by decide, by decide⟩)
    (fun o ho => by
      obtain rfl := List.eq_of_mem_replicate ho
      exact ⟨by decide, by decide, by decide, by decide, by decide, by decide⟩)
  dly i _ := by
    show IsSample (memRead [] .dly i)
    simp only [memRead, Memory.readWord, Memory.read]
    decide
  vis i _ := by
    show IsSample (memRead [] .vis i)
    simp only [memRead, Memory.readWord, Memory.read]
    decide

/-- The hypotheses of LegalKept and TunedKept, at a RENDER. -/
theorem witness_TunedKept : Legal (sounding [.txn 0x10001C00000001] 0) ∧ Tuned (sounding [.txn 0x10001C00000001] 0) ∧
    ∃ t, step (sounding [.txn 0x10001C00000001] 0) = .next t := ⟨witness_Legal _ _ (by decide), witness_Tuned _ _, _, rfl⟩

theorem witness_EnvelopeStep : ref.legal ∧ RegsLegal ref (resetRegs ref) ∧ StartLegal ref (resetRegs ref) ∧ IsLevel f0 ∧ IsLevel f1 ∧
    fle (resetRegs ref).sustain f1 = true :=
  ⟨by decide, witness_RegsLegal, ⟨by decide, by decide⟩, by decide, by decide, by decide⟩

/-- The edges of R428 (f) under R426, with inc_a = 2^-25 (notes 21): a tie up to 1.0, a tie down, an odd value up to an even
one, a retrigger at 1.0. -/
theorem test_envelope_attack_ties :
    let R := { resetRegs ref with sampleRate := 8192, attackS := 0x45800000 }
    [0x3F7FFFFF, 0x3F7FFFFE, 0x3F7FFFFD, 0x3F800000].map (envStep R .attack) =
      [(.decay, f1), (.attack, 0x3F7FFFFE), (.attack, 0x3F7FFFFE), (.decay, f1)] := by decide +kernel

theorem witness_PhasesStayInRange : ref.legal ∧ RegsLegal ref (resetRegs ref) ∧ StartLegal ref (resetRegs ref) ∧ IsPhase f0 ∧ IsPhase 0x3F7FFFFF ∧ fle f0 fHalf = true ∧
    fle fHalf fHalf = true :=
  ⟨by decide, witness_RegsLegal, ⟨by decide, by decide⟩, by decide⟩

theorem witness_BandLimiting : fle f0 f0 = true ∧ (fle fQuarter fQuarter = true ∧ fle fQuarter (fsub f1 fQuarter) = true) ∧
    (fle fQuarter 0x3F400000 = true ∧ fle 0x3F400000 (fsub f1 fQuarter) = true) ∧ flt f0 fHalf = true ∧
    fle fHalf fHalf = true ∧ flt f0 1 = true ∧ fle 1 fHalf = true ∧ IsPhase resetOsc.phase := by decide +kernel

theorem witness_FrameAdvancesVoices : 1 < oneHeld.voices.length ∧ (oneHeld.voice 0).sounding = true ∧
    (oneHeld.voice 1).sounding = false ∧ 1 < (oneHeld.voice 0).oscs.length ∧ 0 < (oneHeld.voice 0).count ∧
    ¬ 1 < (oneHeld.voice 0).count := by decide

/-- SOUNDING (44_filter_mix.md R470) of an active and of an inactive voice in each envelope state. -/
theorem test_sounding :
    let voice := fun (a : Bool) (e : EnvState) =>
      ({ resetVoice ref with active := a, oscs := [{ resetOsc with envState := e }] } : Voice).sounding
    [EnvState.attack, .sustain, .decay, .release, .off].map (voice true) = [true, true, true, true, false] ∧
    [EnvState.attack, .sustain, .decay, .release, .off].map (voice false) = [false, false, false, true, false] := by decide

theorem witness_DelayBypass : s0.params.legal ∧ s0.visWr < s0.params.visCap ∧ s0.active.delayActive = false := by decide

theorem witness_DelayStepResult : s0.mem.wf = true ∧ (0 : Nat) ≠ 1 := by decide

theorem witness_CursorDistance : 0 < s0.params.delayCap ∧ ({ s0 with dlenDirty := true } : State).dlenDirty = true ∧
    s0.delayRd < s0.params.delayCap ∧ s0.delayWr < s0.params.delayCap := by decide

/-- A ring of two words after three steps: word 0 is one of the last writes, word 1 is not. -/
theorem witness_RingCorrectness :
    let s := State.resetOf { ref with delayCap := 2 }
    s.mem.wf = true ∧ s.delayWr = 0 ∧ 1 ≤ s.params.delayCap ∧ [f0, f1, fHalf].length = s.params.delayCap + 1 ∧
    0 < s.params.delayCap ∧ 1 < s.params.delayCap := by decide

theorem witness_Quantizer : (resetRegs ref).quantBits = 0 ∧ IsSample (fneg f1) ∧ IsSample f1 ∧ IsSample 0x3E800000 ∧
    2 * |fvalue 0x3E800000 * 2 ^ 1 - 1 * 2 ^ 149| = 2 ^ 149 := by decide +kernel

/-- The three clauses: a master value of −257, a busy state, and a step that is a frame. -/
theorem witness_OutputInRange :
    (RegsLegal s0.params s0.active ∧ Within 0x43808000 0xC3808000 ∧ IsSample (memRead s0.mem .dly s0.delayRd)) ∧
    (Legal (sounding [] 2) ∧ Tuned (sounding [] 2) ∧ Bounded (sounding [] 2) ∧ (sounding [] 2).busy = true ∧
      (sounding [] 2).params.voiceMax ∣ 32) ∧
    ∃ t, step (sounding [] 2) = .next t :=
  ⟨⟨witness_RegsLegal, by decide +kernel⟩,
    ⟨witness_Legal _ _ (by decide), witness_Tuned _ _, witness_Bounded _ _, rfl, by decide⟩, _, rfl⟩

theorem witness_VisualizationRing : s0.params.legal ∧ s0.mem.wf = true ∧ s0.visWr < s0.params.visCap ∧
    (s0.active.channels = 1 ∨ s0.active.channels = 2) ∧ 1023 < s0.params.visCap := by decide

/-- A byte outside everything a stereo frame with the delay active writes. -/
theorem witness_FrameMemory :
    let s := { s0 with active := { s0.active with channels := 2, mode := 2 } }
    s.active.channels = 2 ∧ s.active.delayActive = true ∧ wordAddr .vis s.visWr + 3 < 0x40008 ∧
    wordAddr .dly s.delayWr + 3 < 0x40008 ∧ wordAddr .dly ((s.delayWr + 1) % s.params.delayCap) + 3 < 0x40008 := by
  decide +kernel

theorem witness_RenderAsAWhole : rendering.framesLeft = 2 ∧ 0 < 2 ∧
    (rendering.active.channels = 1 ∨ rendering.active.channels = 2) := by decide

theorem witness_Quiet : Quiet s0 := by
  refine ⟨fun v hv => ?_, fun i _ => ?_⟩
  · obtain rfl := List.eq_of_mem_replicate hv
    decide
  · show memRead [] .dly i = f0
    simp only [memRead, Memory.readWord, Memory.read]
    decide

theorem witness_SilenceStaysSilent : RegsLegal s0.params s0.active ∧ Quiet s0 ∧ s0.params.legal ∧ (s0.active.channels = 1 ∨ s0.active.channels = 2) ∧
    s0.mem.wf = true ∧ s0.delayRd < s0.params.delayCap ∧ s0.delayWr < s0.params.delayCap ∧
    s0.visWr < s0.params.visCap := ⟨witness_RegsLegal, witness_Quiet, by decide⟩

theorem witness_EngineRaisesNothing : (after (exec (.render 1) s0) State.lastErr) = some 0x10 ∧ s0.lastErr = 0 := by
  decide +kernel

theorem witness_ArithmeticRounds : fIsFinite f1 = true ∧ fIsFinite (fadd f1 f1) = true ∧ fIsFinite (fsub f1 f1) = true ∧
    fIsFinite (fmul f1 f1) = true ∧ fIsFinite (fdiv f1 f1) = true ∧ fvalue f1 ≠ 0 ∧ fvalue f2 ≠ fvalue (fadd f1 0x33800000) ∧
    |fvalue (fadd f1 0x33800000) - (fvalue f1 + fvalue 0x33800000)| =
      |fvalue 0x3F800001 - (fvalue f1 + fvalue 0x33800000)| := by decide +kernel

/-- The largest finite value plus a half of its last place is the middle, and one place less than that half stays below;
-1.5 has a floor, and is a tie of round_ha. -/
theorem witness_ArithmeticRounds_edges :
    |fvalue 0x7F7FFFFF + fvalue 0x73000000| = (2 ^ 25 - 1) * 2 ^ 252 ∧ fIsFinite (fadd 0x7F7FFFFF 0x73000000) = false ∧
    |fvalue 0x7F7FFFFF + fvalue 0x72FFFFFF| < (2 ^ 25 - 1) * 2 ^ 252 ∧ fIsFinite (fadd 0x7F7FFFFF 0x72FFFFFF) = true ∧
    (2 ^ 24 : Nat) ≤ 2 ^ 24 ∧ fIsFinite 0xBFC00000 = true ∧ 0 ≤ fvalue f1p25 ∧
    2 * |fvalue 0xBFC00000 - (-2) * 2 ^ 149| = 2 ^ 149 ∧ ffloor 0xBFC00000 = 0xC0000000 ∧ froundHa 0xBFC00000 = 0xC0000000 := by
  decide +kernel

theorem witness_NoteFrequencies : fIsFinite f1 = true ∧ f1.msb = false ∧ funits f1 < funits (noteFreq 69) ∧
    funits (noteFreq 69) < funits 0x43DC0001 := by decide +kernel

theorem witness_SineProperties : fle f0 f1p25 = true ∧ fle f1p25 f1p25 = true ∧ fle f0 fHalf = true ∧
    fvalue 0x3EC00000 = fvalue fHalf - fvalue 0x3E000000 ∧ fvalue fHalf = fvalue fHalf - fvalue f0 ∧
    fvalue 0x3F200000 = fvalue 0x3E000000 + fvalue fHalf ∧ flt 0x3E000000 fHalf = true := by decide +kernel

theorem witness_TanhProperties : fIsFinite 0x7F7FFFFF = true ∧ fIsFinite 0xFF7FFFFF = true ∧
    fle 0xFF7FFFFF 0x7F7FFFFF = true := by decide

theorem witness_MemoryFormKept : s0.mem.wf = true ∧ ∃ t, step s0 = .next t := ⟨by decide, _, rfl⟩

theorem witness_OneVoicePerKeyKept : s0.active.retrigNew = false ∧ s0.pend.retrigNew = false ∧ OneVoicePerKey s0 :=
  ⟨by decide, by decide, fun i j hi hj h => by
    have hj : j < 8 := hj
    interval_cases j <;> exact absurd h.2.1 (by decide)⟩

end Sys2Proof.Tests
end

/-!
SUPPORT. Binary32 as Machine/Float.lean has it (00_scope.md R20): a word's sign and magnitude bits, the units that
magnitude bits count, and that `roundUnits` takes the nearest magnitude, ties to even.
-/

namespace Sys2Proof.Machine

/-! ## Signs and magnitudes of a word -/

/-- `n` with a sign: what `fvalue` and `fkey` make of a sign bit and a natural number. -/
def signed (neg : Bool) (n : Nat) : Int := if neg then -(n : Int) else n

@[simp] theorem signed_zero (s : Bool) : signed s 0 = 0 := by cases s <;> rfl

@[simp] theorem signed_false (n : Nat) : signed false n = n := rfl

@[simp] theorem signed_true (n : Nat) : signed true n = -(n : Int) := rfl

@[simp] theorem abs_signed (s : Bool) (n : Nat) : |signed s n| = n := by cases s <;> simp

theorem signed_not (s : Bool) (n : Nat) : signed (!s) n = -signed s n := by cases s <;> simp

theorem signed_mul (s t : Bool) (m n : Nat) : signed s m * signed t n = signed (s != t) (m * n) := by
  cases s <;> cases t <;> simp

theorem signed_mul_nat (s : Bool) (m n : Nat) : signed s (m * n) = signed s m * n := by cases s <;> simp

theorem signed_natAbs (z : Int) : signed (decide (z < 0)) z.natAbs = z := by
  by_cases hz : z < 0
  · rw [decide_eq_true hz, signed_true]; omega
  · rw [decide_eq_false hz, signed_false]; omega

/-- A monotone function of magnitudes that is zero at zero keeps the order of signed numbers. -/
theorem signed_le_signed {f : Nat → Nat} {B m n : Nat} (hf : ∀ a b, a ≤ b → b < B → f a ≤ f b) (h0 : f 0 = 0)
    (hm : m < B) (hn : n < B) {s t : Bool} (h : signed s m ≤ signed t n) : signed s (f m) ≤ signed t (f n) := by
  cases s <;> cases t <;> simp only [signed_false, signed_true] at h ⊢
  · have := hf m n (by omega) hn
    omega
  · obtain ⟨rfl, rfl⟩ : m = 0 ∧ n = 0 := by omega
    omega
  · omega
  · have := hf n m (by omega) hm
    omega

/-- A strictly monotone function of magnitudes that is zero at zero keeps and reflects the order of signed numbers. -/
theorem signed_le_signed_iff {f : Nat → Nat} (hf : StrictMono f) (h0 : f 0 = 0) (s t : Bool) (m n : Nat) :
    signed s (f m) ≤ signed t (f n) ↔ signed s m ≤ signed t n := by
  have hmn := hf.le_iff_le (a := m) (b := n)
  have hnm := hf.le_iff_le (a := n) (b := m)
  have hm := hf.le_iff_le (a := m) (b := 0)
  have hn := hf.le_iff_le (a := n) (b := 0)
  cases s <;> cases t <;> simp only [signed_false, signed_true] <;> omega

theorem fmag_lt (x : F32) : fmag x < 2 ^ 31 := Nat.mod_lt _ (by decide)

theorem toNat_eq_msb_fmag (x : F32) : x.toNat = (if x.msb then 2 ^ 31 else 0) + fmag x := by
  have hx := x.isLt
  rw [BitVec.msb_eq_decide]
  unfold fmag
  by_cases h : 2 ^ 31 ≤ x.toNat <;> simp only [decide_eq_true_eq, Nat.add_one_sub_one, h, if_true, if_false] <;> omega

theorem eq_of_msb_fmag {x y : F32} (hs : x.msb = y.msb) (hm : fmag x = fmag y) : x = y :=
  BitVec.eq_of_toNat_eq (by rw [toNat_eq_msb_fmag x, toNat_eq_msb_fmag y, hs, hm])

theorem toNat_fpack (s : Bool) {m : Nat} (hm : m < 2 ^ 31) : (fpack s m).toNat = (if s then 2 ^ 31 else 0) + m := by
  unfold fpack
  rw [BitVec.toNat_ofNat]
  cases s <;> simp only [if_true, if_false, Bool.false_eq_true] <;> omega

theorem fmag_fpack (s : Bool) {m : Nat} (hm : m < 2 ^ 31) : fmag (fpack s m) = m := by
  unfold fmag
  rw [toNat_fpack s hm]
  cases s <;> simp only [if_true, if_false, Bool.false_eq_true] <;> omega

theorem msb_fpack (s : Bool) {m : Nat} (hm : m < 2 ^ 31) : (fpack s m).msb = s := by
  rw [BitVec.msb_eq_decide, toNat_fpack s hm]
  cases s <;> simp only [if_true, if_false, Bool.false_eq_true, decide_eq_true_eq, decide_eq_false_iff_not] <;> omega

@[simp] theorem fmag_fneg (x : F32) : fmag (fneg x) = fmag x := by
  unfold fmag fneg
  rw [BitVec.toNat_xor, Nat.xor_mod_two_pow]
  exact Nat.xor_zero _

@[simp] theorem msb_fneg (x : F32) : (fneg x).msb = !x.msb := by
  unfold fneg
  rw [BitVec.msb_xor]
  exact Bool.xor_true _

@[simp] theorem fmag_fabs (x : F32) : fmag (fabs x) = fmag x := by
  unfold fmag fabs
  rw [BitVec.toNat_and, Nat.and_mod_two_pow]
  exact (Nat.and_two_pow_sub_one_eq_mod _ 31).trans (Nat.mod_mod _ _)

@[simp] theorem msb_fabs (x : F32) : (fabs x).msb = false := by
  unfold fabs
  rw [BitVec.msb_and]
  exact Bool.and_false _

theorem fpack_msb_fmag (x : F32) : fpack x.msb (fmag x) = x :=
  eq_of_msb_fmag (msb_fpack _ (fmag_lt x)) (fmag_fpack _ (fmag_lt x))

theorem fneg_fpack (s : Bool) {m : Nat} (hm : m < 2 ^ 31) : fneg (fpack s m) = fpack (!s) m := by
  apply eq_of_msb_fmag
  · rw [msb_fneg, msb_fpack _ hm, msb_fpack _ hm]
  · rw [fmag_fneg, fmag_fpack _ hm, fmag_fpack _ hm]

theorem fIsFinite_iff {x : F32} : fIsFinite x = true ↔ fmag x < infMag := decide_eq_true_iff

theorem fIsNaN_of_finite {x : F32} (hx : fIsFinite x = true) : fIsNaN x = false :=
  decide_eq_false (by have := fIsFinite_iff.mp hx; omega)

theorem fIsInf_of_finite {x : F32} (hx : fIsFinite x = true) : fIsInf x = false :=
  beq_eq_false_iff_ne.mpr (by have := fIsFinite_iff.mp hx; omega)

@[simp] theorem fIsFinite_fneg (x : F32) : fIsFinite (fneg x) = fIsFinite x := by simp [fIsFinite]

@[simp] theorem fIsNaN_fneg (x : F32) : fIsNaN (fneg x) = fIsNaN x := by simp [fIsNaN]

theorem fIsFinite_fpack (s : Bool) {m : Nat} (hm : m < 2 ^ 31) : fIsFinite (fpack s m) = true ↔ m < infMag := by
  rw [fIsFinite_iff, fmag_fpack s hm]

/-! ## The units of a magnitude -/

/-- The units of 2^-149 that the magnitude bits `m` count, as `funits` counts them for a word. -/
def magUnits (m : Nat) : Nat := if m / 2 ^ 23 = 0 then m % 2 ^ 23 else (2 ^ 23 + m % 2 ^ 23) * 2 ^ (m / 2 ^ 23 - 1)

theorem funits_eq (x : F32) : funits x = magUnits (fmag x) := rfl

theorem fvalue_eq (x : F32) : fvalue x = signed x.msb (magUnits (fmag x)) := rfl

theorem fkey_eq (x : F32) : fkey x = signed x.msb (fmag x) := rfl

@[simp] theorem magUnits_zero : magUnits 0 = 0 := rfl

/-- A significand `m` at the exponent of `q` low bits dropped; one of 2^24 carries into the exponent field. -/
theorem magUnits_significand {q m : Nat} (hlo : q = 0 ∨ 2 ^ 23 ≤ m) (hhi : m ≤ 2 ^ 24) :
    magUnits (q * 2 ^ 23 + m) = m * 2 ^ q := by
  unfold magUnits
  by_cases hsub : m < 2 ^ 23
  · obtain rfl : q = 0 := by omega
    rw [if_pos (by omega), Nat.pow_zero]; omega
  by_cases htop : m = 2 ^ 24
  · obtain rfl := htop
    rw [if_neg (by omega), show (q * 2 ^ 23 + 2 ^ 24) / 2 ^ 23 - 1 = q + 1 by omega,
      show (q * 2 ^ 23 + 2 ^ 24) % 2 ^ 23 = 0 by omega]
    ring
  · rw [if_neg (by omega), show (q * 2 ^ 23 + m) / 2 ^ 23 - 1 = q by omega,
      show 2 ^ 23 + (q * 2 ^ 23 + m) % 2 ^ 23 = m by omega]

/-- Every magnitude is a significand below 2^24 at some exponent. -/
theorem exists_significand (m : Nat) :
    ∃ q c, m = q * 2 ^ 23 + c ∧ (q = 0 ∨ 2 ^ 23 ≤ c) ∧ c < 2 ^ 24 ∧ magUnits m = c * 2 ^ q := by
  obtain ⟨q, c, rfl, hlo, hhi⟩ : ∃ q c, m = q * 2 ^ 23 + c ∧ (q = 0 ∨ 2 ^ 23 ≤ c) ∧ c < 2 ^ 24 :=
    ⟨m / 2 ^ 23 - 1, m - (m / 2 ^ 23 - 1) * 2 ^ 23, by omega, by omega, by omega⟩
  exact ⟨q, c, rfl, hlo, hhi, magUnits_significand hlo hhi.le⟩

theorem magUnits_strictMono : StrictMono magUnits := by
  refine strictMono_nat_of_lt_succ fun m => ?_
  obtain ⟨q, c, rfl, hlo, hhi, hm⟩ := exists_significand m
  rw [hm, Nat.add_assoc, magUnits_significand (by omega) (by omega)]
  exact Nat.mul_lt_mul_of_pos_right (Nat.lt_succ_self c) (Nat.two_pow_pos q)

theorem magUnits_mono {m n : Nat} (h : m ≤ n) : magUnits m ≤ magUnits n := magUnits_strictMono.monotone h

theorem magUnits_eq_zero {m : Nat} : magUnits m = 0 ↔ m = 0 := magUnits_strictMono.injective.eq_iff' rfl

theorem magUnits_infMag : magUnits infMag = 2 ^ 23 * 2 ^ 254 :=
  magUnits_significand (q := 254) (m := 2 ^ 23) (.inr le_rfl) (by decide)

/-- The middle of the largest finite value and 2^128, doubled. -/
theorem magUnits_top : magUnits (infMag - 1) + magUnits infMag = 2 * ((2 ^ 25 - 1) * 2 ^ 252) := by
  have hlast : magUnits (infMag - 1) = (2 ^ 24 - 1) * 2 ^ 253 :=
    magUnits_significand (q := 253) (m := 2 ^ 24 - 1) (.inr (by decide)) (by decide)
  rw [hlast, magUnits_infMag]
  omega

theorem lt_infMag_iff {m : Nat} : m < infMag ↔ magUnits m < 2 ^ 23 * 2 ^ 254 := by
  rw [← magUnits_infMag, magUnits_strictMono.lt_iff_lt]

/-- Every multiple `m` of a power of two, `m` at most 2^24, is the units of a magnitude. -/
theorem exists_magUnits_eq {m : Nat} (q : Nat) (hm : m ≤ 2 ^ 24) : ∃ y, magUnits y = m * 2 ^ q := by
  by_cases h : 2 ^ 23 ≤ m
  · exact ⟨_, magUnits_significand (.inr h) hm⟩
  induction q generalizing m with
  | zero => exact ⟨_, magUnits_significand (.inl rfl) hm⟩
  | succ q ih =>
    by_cases h2 : 2 ^ 23 ≤ 2 * m
    · exact ⟨_, (magUnits_significand (q := q) (.inr h2) (by omega)).trans (by ring)⟩
    · obtain ⟨y, hy⟩ := ih (m := 2 * m) (by omega) h2
      exact ⟨y, hy.trans (by ring)⟩

/-! ## Rounding -/

/-- The number of low bits of a quotient that do not fit a 24-bit significand, as `roundUnits` takes it. -/
def droppedBits (k : Nat) : Nat := if k < 2 ^ 24 then 0 else Nat.log2 k - 23

theorem roundUnits_eq (n d : Nat) : roundUnits n d =
    let unit := d * 2 ^ droppedBits (n / d)
    let m := n / unit
    let r := n % unit
    min (droppedBits (n / d) * 2 ^ 23 + if unit < 2 * r ∨ (2 * r = unit ∧ m % 2 = 1) then m + 1 else m) infMag := rfl

/-- What is left of a quotient without the dropped bits is a significand. -/
theorem significand_of_droppedBits (k : Nat) :
    (droppedBits k = 0 ∨ 2 ^ 23 ≤ k / 2 ^ droppedBits k) ∧ k / 2 ^ droppedBits k < 2 ^ 24 := by
  unfold droppedBits
  by_cases hk : k < 2 ^ 24
  · rw [if_pos hk]
    exact ⟨.inl rfl, by simpa using hk⟩
  · rw [if_neg hk]
    have hk0 : k ≠ 0 := by omega
    have hlog : 24 ≤ k.log2 := (Nat.le_log2 hk0).mpr (by omega)
    have hpos : 0 < 2 ^ (k.log2 - 23) := Nat.two_pow_pos _
    have hlo : 2 ^ 23 * 2 ^ (k.log2 - 23) ≤ k := by
      rw [← Nat.pow_add, show 23 + (k.log2 - 23) = k.log2 by omega]
      exact Nat.log2_self_le hk0
    have hhi : k < 2 ^ 24 * 2 ^ (k.log2 - 23) := by
      rw [← Nat.pow_add, show 24 + (k.log2 - 23) = k.log2 + 1 by omega]
      exact Nat.lt_log2_self
    exact ⟨.inr ((Nat.le_div_iff_mul_le hpos).mpr hlo), (Nat.div_lt_iff_lt_mul hpos).mpr hhi⟩

/-- `roundUnits` takes one of the two magnitudes around `n / d`: the lower one up to the middle, the upper one from the
middle on, and at the middle the even one. -/
theorem roundUnits_cases (n : Nat) {d : Nat} (hd : 0 < d) : ∃ t, magUnits t * d ≤ n ∧ n < magUnits (t + 1) * d ∧
    (roundUnits n d = min t infMag ∧ 2 * n ≤ (magUnits t + magUnits (t + 1)) * d ∧
        (2 * n = (magUnits t + magUnits (t + 1)) * d → t % 2 = 0) ∨
      roundUnits n d = min (t + 1) infMag ∧ (magUnits t + magUnits (t + 1)) * d ≤ 2 * n ∧
        (2 * n = (magUnits t + magUnits (t + 1)) * d → (t + 1) % 2 = 0)) := by
  have hround := roundUnits_eq n d
  dsimp only at hround
  obtain ⟨hlo, hhi⟩ := significand_of_droppedBits (n / d)
  rw [Nat.div_div_eq_div_mul] at hlo hhi
  generalize droppedBits (n / d) = q at hround hlo hhi
  have hunit : 0 < d * 2 ^ q := Nat.mul_pos hd (Nat.two_pow_pos q)
  have hdiv := Nat.div_add_mod n (d * 2 ^ q)
  have hmod := Nat.mod_lt n hunit
  generalize n / (d * 2 ^ q) = m at *
  have hlower : magUnits (q * 2 ^ 23 + m) * d = d * 2 ^ q * m := by
    rw [magUnits_significand hlo hhi.le]; ring
  have hupper : magUnits (q * 2 ^ 23 + m + 1) * d = d * 2 ^ q * m + d * 2 ^ q := by
    rw [Nat.add_assoc, magUnits_significand (m := m + 1) (hlo.imp_right fun h => by omega) hhi]; ring
  refine ⟨q * 2 ^ 23 + m, by omega, by omega, ?_⟩
  rw [Nat.add_mul, hlower, hupper]
  split at hround
  · exact .inr ⟨by rw [hround, Nat.add_assoc], by omega, by omega⟩
  · exact .inl ⟨hround, by omega, by omega⟩

theorem roundUnits_le (n d : Nat) : roundUnits n d ≤ infMag := Nat.min_le_right _ _

theorem roundUnits_lt (n d : Nat) : roundUnits n d < 2 ^ 31 := (roundUnits_le n d).trans_lt (by decide)

/-- No magnitude above a finite result is nearer, and none is as near unless the result is even. -/
theorem roundUnits_below {n d y : Nat} (hd : 0 < d) (hfin : roundUnits n d < infMag) (hy : roundUnits n d < y) :
    2 * n ≤ (magUnits (roundUnits n d) + magUnits y) * d ∧
      (2 * n = (magUnits (roundUnits n d) + magUnits y) * d → roundUnits n d % 2 = 0) := by
  obtain ⟨t, -, hhi, ⟨hr, hmid, htie⟩ | ⟨hr, -, -⟩⟩ := roundUnits_cases n hd
  · have ht : roundUnits n d = t := by omega
    rw [ht] at hy ⊢
    have hstep : magUnits (t + 1) * d ≤ magUnits y * d := Nat.mul_le_mul_right d (magUnits_mono hy)
    rw [Nat.add_mul] at *
    exact ⟨by omega, fun h => htie (by omega)⟩
  · have ht : roundUnits n d = t + 1 := by omega
    rw [ht] at hy ⊢
    have hstep : magUnits (t + 1) * d ≤ magUnits y * d := Nat.mul_le_mul_right d (magUnits_mono hy.le)
    rw [Nat.add_mul]
    exact ⟨by omega, by omega⟩

/-- No magnitude below the result is nearer, and none is as near unless the result is even. -/
theorem roundUnits_above {n d y : Nat} (hd : 0 < d) (hy : y < roundUnits n d) :
    (magUnits (roundUnits n d) + magUnits y) * d ≤ 2 * n ∧
      (2 * n = (magUnits (roundUnits n d) + magUnits y) * d → roundUnits n d % 2 = 0) := by
  obtain ⟨t, hlo, -, ⟨hr, -, -⟩ | ⟨hr, hmid, htie⟩⟩ := roundUnits_cases n hd
  · have hle : magUnits (roundUnits n d) * d ≤ magUnits t * d := Nat.mul_le_mul_right d (magUnits_mono (by omega))
    have hlt : magUnits y * d < magUnits (roundUnits n d) * d := Nat.mul_lt_mul_of_pos_right (magUnits_strictMono hy) hd
    rw [Nat.add_mul]
    exact ⟨by omega, by omega⟩
  · have hle : magUnits (roundUnits n d) * d ≤ magUnits (t + 1) * d :=
      Nat.mul_le_mul_right d (magUnits_mono (by omega))
    have hyt : magUnits y * d ≤ magUnits t * d := Nat.mul_le_mul_right d (magUnits_mono (by omega))
    rw [Nat.add_mul] at *
    refine ⟨by omega, fun h => ?_⟩
    have hup : roundUnits n d = t + 1 :=
      magUnits_strictMono.injective (Nat.eq_of_mul_eq_mul_right hd (by omega))
    rw [hup]
    exact htie (by omega)

/-- The result is finite just below the middle of the largest finite value and 2^128. -/
theorem roundUnits_lt_infMag_iff {n d : Nat} (hd : 0 < d) :
    roundUnits n d < infMag ↔ n < (2 ^ 25 - 1) * 2 ^ 252 * d := by
  constructor
  · intro hfin
    obtain ⟨hle, htie⟩ := roundUnits_below hd hfin hfin
    have hlast : (magUnits (roundUnits n d) + magUnits infMag) * d ≤ (magUnits (infMag - 1) + magUnits infMag) * d :=
      Nat.mul_le_mul_right d (Nat.add_le_add_right (magUnits_mono (by omega)) _)
    have htop : (magUnits (infMag - 1) + magUnits infMag) * d = 2 * ((2 ^ 25 - 1) * 2 ^ 252 * d) := by
      rw [magUnits_top]; ring
    by_contra hge
    have hsum : magUnits (roundUnits n d) + magUnits infMag = magUnits (infMag - 1) + magUnits infMag :=
      Nat.eq_of_mul_eq_mul_right hd (by omega)
    have hr : roundUnits n d = infMag - 1 := magUnits_strictMono.injective (Nat.add_right_cancel hsum)
    have heven := htie (by omega)
    rw [hr] at heven
    exact absurd heven (by decide)
  · intro hlt
    by_contra hinf
    have hr : roundUnits n d = infMag := by have := roundUnits_le n d; omega
    have habove := (roundUnits_above (y := infMag - 1) hd (by rw [hr]; decide)).1
    rw [hr, Nat.add_comm, magUnits_top, Nat.mul_assoc 2] at habove
    omega

/-- Rounding is exact on the units of a magnitude up to that of the infinities. -/
theorem roundUnits_exact {y d : Nat} (hd : 0 < d) (hy : y ≤ infMag) : roundUnits (magUnits y * d) d = y := by
  rcases Nat.lt_trichotomy (roundUnits (magUnits y * d) d) y with h | h | h
  · have hstep := Nat.mul_lt_mul_of_pos_right (magUnits_strictMono h) hd
    have := (roundUnits_below hd (h.trans_le hy) h).1
    rw [Nat.add_mul] at this
    omega
  · exact h
  · have hstep := Nat.mul_lt_mul_of_pos_right (magUnits_strictMono h) hd
    have := (roundUnits_above hd h).1
    rw [Nat.add_mul] at this
    omega

/-- A multiple of a power of two, of at most 24 bits and below 2^128, is exact. -/
theorem roundUnits_of_significand {m q : Nat} (hm : m ≤ 2 ^ 24) (hlt : m * 2 ^ q < 2 ^ 23 * 2 ^ 254) :
    magUnits (roundUnits (m * 2 ^ q) 1) = m * 2 ^ q ∧ roundUnits (m * 2 ^ q) 1 < infMag := by
  obtain ⟨y, hy⟩ := exists_magUnits_eq q hm
  have hfin : y < infMag := lt_infMag_iff.mpr (hy ▸ hlt)
  have hr : roundUnits (m * 2 ^ q) 1 = y := by
    have hexact := roundUnits_exact Nat.one_pos hfin.le
    rwa [Nat.mul_one, hy] at hexact
  rw [hr]
  exact ⟨hy, hfin⟩

/-! ## Nearest values -/

/-- Of two numbers on one side each of their middle, the one on `n`'s side is nearer. -/
theorem abs_sub_le_of_middle {a b n : Int} (h : a < b ∧ 2 * n ≤ a + b ∨ b < a ∧ a + b ≤ 2 * n) :
    |a - n| ≤ |b - n| ∧ (|a - n| = |b - n| → 2 * n = a + b) := by
  rcases abs_cases (a - n) with ⟨ha, hsa⟩ | ⟨ha, hsa⟩ <;>
    rcases abs_cases (b - n) with ⟨hb, hsb⟩ | ⟨hb, hsb⟩ <;> rw [ha, hb] <;> omega

theorem roundUnits_nearest {n d : Nat} (hd : 0 < d) (hfin : roundUnits n d < infMag) (y : Nat) :
    |(magUnits (roundUnits n d) * d : Int) - n| ≤ |(magUnits y * d : Int) - n| ∧
      (|(magUnits (roundUnits n d) * d : Int) - n| = |(magUnits y * d : Int) - n| → y ≠ roundUnits n d →
        roundUnits n d % 2 = 0) := by
  by_cases hy : y = roundUnits n d
  · rw [hy]
    exact ⟨le_rfl, fun _ hne => absurd rfl hne⟩
  obtain ⟨hside, heven⟩ : (magUnits (roundUnits n d) * d < magUnits y * d ∧
        2 * n ≤ (magUnits (roundUnits n d) + magUnits y) * d ∨
      magUnits y * d < magUnits (roundUnits n d) * d ∧ (magUnits (roundUnits n d) + magUnits y) * d ≤ 2 * n) ∧
      (2 * n = (magUnits (roundUnits n d) + magUnits y) * d → roundUnits n d % 2 = 0) := by
    rcases Nat.lt_or_gt_of_ne hy with h | h
    · exact (roundUnits_above hd h).imp_left fun hmid =>
        .inr ⟨Nat.mul_lt_mul_of_pos_right (magUnits_strictMono h) hd, hmid⟩
    · exact (roundUnits_below hd hfin h).imp_left fun hmid =>
        .inl ⟨Nat.mul_lt_mul_of_pos_right (magUnits_strictMono h) hd, hmid⟩
  rw [Nat.add_mul] at hside heven
  obtain ⟨hle, htie⟩ := abs_sub_le_of_middle (a := magUnits (roundUnits n d) * d) (b := magUnits y * d) (n := n)
    (by exact_mod_cast hside)
  exact ⟨hle, fun heq _ => heven (by exact_mod_cast htie heq)⟩

/-- `x` is a binary32 value nearest to `z / d` units, and the even one of two that are as near (00_scope.md R20). -/
def NearestEven (x : F32) (d z : Int) : Prop :=
  ∀ y, fIsFinite y = true → |fvalue x * d - z| ≤ |fvalue y * d - z| ∧
    (|fvalue x * d - z| = |fvalue y * d - z| → fvalue y ≠ fvalue x → fmag x % 2 = 0)

theorem NearestEven.neg {x : F32} {d z : Int} (h : NearestEven x d z) : NearestEven x (-d) (-z) := by
  intro y hy
  have hflip : ∀ v : Int, |v * -d - -z| = |v * d - z| := fun v => by rw [← abs_neg]; ring_nf
  rw [hflip, hflip]
  exact h y hy

/-- A nearest value to a finite value is that value. -/
theorem NearestEven.fvalue_eq {x y : F32} {z : Int} (h : NearestEven x 1 z) (hy : fIsFinite y = true)
    (hz : fvalue y = z) : fvalue x = z := by
  have hle := (h y hy).1
  rw [hz, mul_one, mul_one, sub_self, abs_zero] at hle
  exact sub_eq_zero.mp (abs_nonpos_iff.mp hle)

theorem fvalue_fpack (s : Bool) {m : Nat} (hm : m < 2 ^ 31) : fvalue (fpack s m) = signed s (magUnits m) := by
  rw [fvalue_eq, msb_fpack s hm, fmag_fpack s hm]

@[simp] theorem fvalue_fneg (x : F32) : fvalue (fneg x) = -fvalue x := by
  rw [fvalue_eq, fvalue_eq, msb_fneg, fmag_fneg, signed_not]

theorem abs_fvalue (x : F32) : |fvalue x| = magUnits (fmag x) := by rw [fvalue_eq, abs_signed]

theorem fvalue_eq_zero {x : F32} : fvalue x = 0 ↔ fmag x = 0 := by
  rw [← abs_eq_zero, abs_fvalue, Nat.cast_eq_zero, magUnits_eq_zero]

theorem magUnits_pos_of_fvalue_ne_zero {x : F32} (h0 : fvalue x ≠ 0) : 0 < magUnits (fmag x) :=
  Nat.pos_of_ne_zero fun h => h0 (fvalue_eq_zero.mpr (magUnits_eq_zero.mp h))

/-- The rounded magnitude with the sign of the exact result is nearest to it. -/
theorem nearestEven_fpack (s : Bool) {n d : Nat} (hd : 0 < d) (hfin : roundUnits n d < infMag) :
    NearestEven (fpack s (roundUnits n d)) d (signed s n) := by
  intro y hy
  rw [fvalue_fpack s (roundUnits_lt n d), fmag_fpack s (roundUnits_lt n d), fvalue_eq y]
  obtain ⟨hle, htie⟩ := roundUnits_nearest hd hfin (fmag y)
  have hsame : ∀ m : Nat, |signed s (magUnits m) * d - signed s n| = |(magUnits m * d : Int) - n| := by
    intro m
    cases s
    · rfl
    · rw [← abs_neg]; simp only [signed_true]; ring_nf
  rw [hsame]
  by_cases hs : y.msb = s
  · rw [hs, hsame]
    exact ⟨hle, fun heq hne => htie heq fun h => hne (by rw [h])⟩
  · have hother : |signed y.msb (magUnits (fmag y)) * d - signed s n| = magUnits (fmag y) * d + n := by
      have hsum : ∀ m : Nat, signed (!s) m * d - signed s n = signed (!s) (m * d + n) := by
        intro m
        cases s <;> simp only [Bool.not_false, Bool.not_true, signed_true, signed_false] <;> push_cast <;> ring
      rw [Bool.eq_not_of_ne hs, hsum, abs_signed]
      push_cast
      rfl
    obtain ⟨hle0, htie0⟩ := roundUnits_nearest hd hfin 0
    have hzero : |(magUnits 0 * d : Int) - n| = n := by simp
    rw [hzero] at hle0 htie0
    have hyd : (0 : Int) ≤ magUnits (fmag y) * d := by positivity
    rw [hother]
    refine ⟨by omega, fun heq _ => ?_⟩
    by_cases hr : roundUnits n d = 0
    · rw [hr]
    · exact htie0 (by omega) (Ne.symm hr)

end Sys2Proof.Machine

namespace Sys2Proof.Machine

/-! ## The operations on finite values -/

section
variable {a b : F32}

theorem fadd_of_finite (ha : fIsFinite a = true) (hb : fIsFinite b = true) :
    fadd a b = if fvalue a + fvalue b = 0 then fpack (a.msb && b.msb) 0
      else fpack (decide (fvalue a + fvalue b < 0)) (roundUnits (fvalue a + fvalue b).natAbs 1) := by
  simp [fadd, fIsNaN_of_finite, fIsInf_of_finite, ha, hb]

theorem fmul_of_finite (ha : fIsFinite a = true) (hb : fIsFinite b = true) :
    fmul a b = fpack (a.msb != b.msb) (roundUnits (magUnits (fmag a) * magUnits (fmag b)) (2 ^ 149)) := by
  simp only [fmul, fIsNaN_of_finite, fIsInf_of_finite, ha, hb, Bool.or_self, Bool.false_eq_true, if_false]
  rfl

theorem fdiv_of_finite (ha : fIsFinite a = true) (hb : fIsFinite b = true) (h0 : fvalue b ≠ 0) :
    fdiv a b = fpack (a.msb != b.msb) (roundUnits (magUnits (fmag a) * 2 ^ 149) (magUnits (fmag b))) := by
  simp only [fdiv, fIsNaN_of_finite, fIsInf_of_finite, ha, hb, Bool.or_self, Bool.false_eq_true, if_false,
    mt fvalue_eq_zero.mpr h0]
  rfl

/-- A sum that is exactly zero is +0.0, unless both operands are negative zeros. -/
theorem fadd_eq_zero (ha : fIsFinite a = true) (hb : fIsFinite b = true) (hz : fvalue a + fvalue b = 0) :
    fadd a b = if a.msb && b.msb then fneg f0 else f0 := by
  rw [fadd_of_finite ha hb, if_pos hz]
  cases a.msb && b.msb <;> rfl

theorem fadd_finite_iff (ha : fIsFinite a = true) (hb : fIsFinite b = true) :
    fIsFinite (fadd a b) = true ↔ |fvalue a + fvalue b| < (2 ^ 25 - 1) * 2 ^ 252 := by
  rw [fadd_of_finite ha hb, Int.abs_eq_natAbs]
  split
  case isTrue hz =>
    refine iff_of_true ((fIsFinite_fpack _ (by decide)).mpr (by decide)) ?_
    rw [hz, Int.natAbs_zero]
    omega
  case isFalse hz =>
    rw [fIsFinite_fpack _ (roundUnits_lt _ _), roundUnits_lt_infMag_iff Nat.one_pos]
    omega

theorem fadd_nearest (ha : fIsFinite a = true) (hb : fIsFinite b = true) (hfin : fIsFinite (fadd a b) = true) :
    NearestEven (fadd a b) 1 (fvalue a + fvalue b) := by
  rw [fadd_of_finite ha hb] at hfin ⊢
  split
  case isTrue hz =>
    intro y _
    rw [hz, fvalue_fpack _ (by decide), fmag_fpack _ (by decide)]
    simp
  case isFalse hz =>
    rw [if_neg hz, fIsFinite_fpack _ (roundUnits_lt _ _)] at hfin
    simpa only [signed_natAbs, Nat.cast_one] using nearestEven_fpack (decide (fvalue a + fvalue b < 0)) Nat.one_pos hfin

theorem fsub_finite_iff (ha : fIsFinite a = true) (hb : fIsFinite b = true) :
    fIsFinite (fsub a b) = true ↔ |fvalue a - fvalue b| < (2 ^ 25 - 1) * 2 ^ 252 := by
  unfold fsub
  rw [fadd_finite_iff ha (by simpa using hb), fvalue_fneg, ← sub_eq_add_neg]

theorem fsub_nearest (ha : fIsFinite a = true) (hb : fIsFinite b = true) (hfin : fIsFinite (fsub a b) = true) :
    NearestEven (fsub a b) 1 (fvalue a - fvalue b) := by
  unfold fsub at *
  have h := fadd_nearest ha (by simpa using hb) hfin
  rwa [fvalue_fneg, ← sub_eq_add_neg] at h

theorem fsub_eq_zero (ha : fIsFinite a = true) (hb : fIsFinite b = true) (hz : fvalue a - fvalue b = 0) :
    fsub a b = if a.msb && !b.msb then fneg f0 else f0 := by
  unfold fsub
  rw [fadd_eq_zero ha (by simpa using hb) (by rw [fvalue_fneg]; omega), msb_fneg]

/-- A finite value is below the middle from which on a result is an infinity. -/
theorem abs_fvalue_lt_top {x : F32} (hx : fIsFinite x = true) : |fvalue x| < (2 ^ 25 - 1) * 2 ^ 252 := by
  have hlt := magUnits_strictMono (fIsFinite_iff.mp hx)
  have htop := magUnits_top
  have hle : magUnits (fmag x) ≤ magUnits (infMag - 1) := magUnits_mono (by have := fIsFinite_iff.mp hx; omega)
  rw [abs_fvalue]
  omega

/-- A difference that is a finite value is exact. -/
theorem fsub_exact {y : F32} (ha : fIsFinite a = true) (hb : fIsFinite b = true) (hy : fIsFinite y = true)
    (h : fvalue y = fvalue a - fvalue b) : fIsFinite (fsub a b) = true ∧ fvalue (fsub a b) = fvalue a - fvalue b := by
  have hfin : fIsFinite (fsub a b) = true := (fsub_finite_iff ha hb).mpr (h ▸ abs_fvalue_lt_top hy)
  exact ⟨hfin, (fsub_nearest ha hb hfin).fvalue_eq hy h⟩

theorem fmul_msb (ha : fIsFinite a = true) (hb : fIsFinite b = true) : (fmul a b).msb = (a.msb != b.msb) := by
  rw [fmul_of_finite ha hb, msb_fpack _ (roundUnits_lt _ _)]

theorem fmul_finite_iff (ha : fIsFinite a = true) (hb : fIsFinite b = true) :
    fIsFinite (fmul a b) = true ↔ |fvalue a * fvalue b| < (2 ^ 25 - 1) * 2 ^ 252 * 2 ^ 149 := by
  rw [fmul_of_finite ha hb, fIsFinite_fpack _ (roundUnits_lt _ _),
    roundUnits_lt_infMag_iff (Nat.two_pow_pos 149), abs_mul, abs_fvalue, abs_fvalue]
  zify
  norm_num

theorem fmul_nearest (ha : fIsFinite a = true) (hb : fIsFinite b = true) (hfin : fIsFinite (fmul a b) = true) :
    NearestEven (fmul a b) (2 ^ 149) (fvalue a * fvalue b) := by
  rw [fmul_of_finite ha hb] at hfin ⊢
  rw [fIsFinite_fpack _ (roundUnits_lt _ _)] at hfin
  rw [fvalue_eq a, fvalue_eq b, signed_mul]
  exact_mod_cast nearestEven_fpack _ (Nat.two_pow_pos 149) hfin

theorem fdiv_msb (ha : fIsFinite a = true) (hb : fIsFinite b = true) (h0 : fvalue b ≠ 0) :
    (fdiv a b).msb = (a.msb != b.msb) := by
  rw [fdiv_of_finite ha hb h0, msb_fpack _ (roundUnits_lt _ _)]

theorem fdiv_finite_iff (ha : fIsFinite a = true) (hb : fIsFinite b = true) (h0 : fvalue b ≠ 0) :
    fIsFinite (fdiv a b) = true ↔ |fvalue a| * 2 ^ 149 < (2 ^ 25 - 1) * 2 ^ 252 * |fvalue b| := by
  rw [fdiv_of_finite ha hb h0, fIsFinite_fpack _ (roundUnits_lt _ _),
    roundUnits_lt_infMag_iff (magUnits_pos_of_fvalue_ne_zero h0), abs_fvalue, abs_fvalue]
  zify
  norm_num

theorem fdiv_nearest (ha : fIsFinite a = true) (hb : fIsFinite b = true) (h0 : fvalue b ≠ 0)
    (hfin : fIsFinite (fdiv a b) = true) : NearestEven (fdiv a b) (fvalue b) (fvalue a * 2 ^ 149) := by
  rw [fdiv_of_finite ha hb h0] at hfin ⊢
  rw [fIsFinite_fpack _ (roundUnits_lt _ _)] at hfin
  have h := nearestEven_fpack (a.msb != b.msb) (magUnits_pos_of_fvalue_ne_zero h0) hfin
  rw [signed_mul_nat, Nat.cast_pow, Nat.cast_ofNat] at h
  rw [fvalue_eq a, fvalue_eq b]
  cases hs : b.msb with
  | false =>
    rw [hs] at h
    rwa [Bool.bne_false] at h ⊢
  | true =>
    rw [hs, Bool.bne_true, signed_not, neg_mul] at h
    have hneg := h.neg
    rwa [neg_neg, ← Bool.bne_true] at hneg
end

end Sys2Proof.Machine

namespace Sys2Proof.Machine
/-! ## Comparison -/

theorem fvalue_le_iff (a b : F32) : fvalue a ≤ fvalue b ↔ fkey a ≤ fkey b :=
  signed_le_signed_iff magUnits_strictMono magUnits_zero _ _ _ _

theorem fvalue_lt_iff (a b : F32) : fvalue a < fvalue b ↔ fkey a < fkey b := by
  rw [← not_le, ← not_le, fvalue_le_iff]

theorem fvalue_eq_iff (a b : F32) : fvalue a = fvalue b ↔ fkey a = fkey b := by
  rw [le_antisymm_iff, le_antisymm_iff, fvalue_le_iff, fvalue_le_iff]

section
variable {a b : F32}

theorem fle_of_finite (ha : fIsFinite a = true) (hb : fIsFinite b = true) : fle a b = decide (fvalue a ≤ fvalue b) := by
  simp [fle, fIsNaN_of_finite, ha, hb, fvalue_le_iff]

theorem flt_of_finite (ha : fIsFinite a = true) (hb : fIsFinite b = true) : flt a b = decide (fvalue a < fvalue b) := by
  simp [flt, fIsNaN_of_finite, ha, hb, fvalue_lt_iff]

theorem feq_of_finite (ha : fIsFinite a = true) (hb : fIsFinite b = true) : feq a b = decide (fvalue a = fvalue b) := by
  simp only [feq, fIsNaN_of_finite, ha, hb, fvalue_eq_iff, Bool.not_false, Bool.true_and, beq_eq_decide]

theorem fmin_of_finite (ha : fIsFinite a = true) (hb : fIsFinite b = true) :
    fmin a b = if fvalue a ≤ fvalue b then a else b := by simp [fmin, fle_of_finite ha hb]

theorem fmax_of_finite (ha : fIsFinite a = true) (hb : fIsFinite b = true) :
    fmax a b = if fvalue b ≤ fvalue a then a else b := by simp [fmax, fle_of_finite hb ha]
end

/-- The value of a positive normal word from its exponent and significand. -/
theorem fvalue_of_significand {x : F32} {q c : Nat} (hx : x.msb = false ∧ fmag x = q * 2 ^ 23 + c) (hlo : 2 ^ 23 ≤ c)
    (hhi : c ≤ 2 ^ 24) : fvalue x = c * 2 ^ q := by
  rw [fvalue_eq, hx.1, hx.2, magUnits_significand (.inr hlo) hhi, signed_false]
  push_cast
  rfl

/-- Words of one value other than zero are the same word. -/
theorem eq_of_fvalue_eq {x y : F32} (h : fvalue x = fvalue y) (h0 : fvalue x ≠ 0) : x = y := by
  have hmag : magUnits (fmag x) = magUnits (fmag y) := by
    zify; rw [← abs_fvalue, ← abs_fvalue, h]
  have hm := magUnits_pos_of_fvalue_ne_zero h0
  have hs : x.msb = y.msb := by
    rw [fvalue_eq, fvalue_eq, ← hmag] at h
    cases hx : x.msb <;> cases hy : y.msb <;> simp only [hx, hy, signed_false, signed_true] at h ⊢ <;> omega
  exact eq_of_msb_fmag hs (magUnits_strictMono.injective hmag)

theorem fle_iff {a b : F32} : fle a b = true ↔ fIsNaN a = false ∧ fIsNaN b = false ∧ fkey a ≤ fkey b := by
  simp [fle, and_assoc]

theorem fle_of_flt {a b : F32} (h : flt a b = true) : fle a b = true := by
  simp only [flt, fle, Bool.and_eq_true, decide_eq_true_eq] at h ⊢
  exact h.imp_right le_of_lt

/-- A word between +0.0 and a finite value is finite. -/
theorem fIsFinite_of_between {x c : F32} (hc : fIsFinite c = true) (h0 : fle f0 x = true) (h : fle x c = true) :
    fIsFinite x = true := by
  obtain ⟨-, -, hlo⟩ := fle_iff.mp h0
  obtain ⟨-, -, hhi⟩ := fle_iff.mp h
  rw [fIsFinite_iff] at hc ⊢
  rw [show fkey f0 = 0 from rfl, fkey_eq] at hlo
  rw [fkey_eq, fkey_eq] at hhi
  cases hx : x.msb <;> cases hcs : c.msb <;> simp only [hx, hcs, signed_false, signed_true] at hlo hhi <;> omega

/-- A word is in [−1, 1] just when its magnitude bits are at most those of 1.0. -/
theorem isSample_iff (x : F32) : IsSample x ↔ fmag x ≤ 0x3F800000 := by
  have hone : fIsNaN f1 = false ∧ fIsNaN (fneg f1) = false ∧ fkey f1 = 0x3F800000 ∧ fkey (fneg f1) = -0x3F800000 := by
    decide
  obtain ⟨hn, hn', hk, hk'⟩ := hone
  have hinf : infMag = 0x7F800000 := rfl
  unfold IsSample fle
  rw [hn, hn', hk, hk', fkey_eq]
  simp only [fIsNaN, Bool.and_eq_true, Bool.not_eq_true', decide_eq_false_iff_not, decide_eq_true_eq, Bool.not_false,
    true_and, and_true]
  cases x.msb <;> simp only [signed_false, signed_true] <;> omega

theorem isSample_fneg {x : F32} (h : IsSample x) : IsSample (fneg x) := by
  rw [isSample_iff] at h ⊢
  rwa [fmag_fneg]

theorem isSample_fpack (s : Bool) {m : Nat} (h : m ≤ 0x3F800000) : IsSample (fpack s m) := by
  rw [isSample_iff, fmag_fpack s (by omega)]
  exact h

theorem fIsFinite_of_isSample {x : F32} (h : IsSample x) : fIsFinite x = true :=
  fIsFinite_iff.mpr (((isSample_iff x).mp h).trans_lt (by decide))

/-! ## Integers -/

theorem fofNat_exact {n : Nat} (hn : n ≤ 2 ^ 24) : fIsFinite (fofNat n) = true ∧ fvalue (fofNat n) = n * 2 ^ 149 := by
  obtain ⟨hunits, hfin⟩ := roundUnits_of_significand (q := 149) hn (by omega)
  unfold fofNat
  rw [fIsFinite_fpack _ (roundUnits_lt _ _), fvalue_fpack _ (roundUnits_lt _ _), hunits, signed_false]
  exact ⟨hfin, by push_cast; rfl⟩

/-- A magnitude of at least 2^24 is an integer. -/
theorem oneUnits_dvd_of_large {m : Nat} (h : 2 ^ 24 * oneUnits ≤ magUnits m) : oneUnits ∣ magUnits m := by
  obtain ⟨q, c, -, -, hc, hm⟩ := exists_significand m
  rw [hm] at h ⊢
  have hq : oneUnits < 2 ^ q := by
    by_contra hle
    have := Nat.mul_lt_mul_of_lt_of_le hc (not_lt.mp hle) (Nat.two_pow_pos 149)
    omega
  exact Dvd.dvd.mul_left (Nat.pow_dvd_pow 2 ((Nat.pow_lt_pow_iff_right (by decide)).mp hq).le) c

/-- An integer less than 1 away from a finite magnitude is the exact value of a finite magnitude. -/
theorem roundUnits_near_integer {m k : Nat} (hm : m < infMag) (hlo : magUnits m < k * oneUnits + oneUnits)
    (hhi : k * oneUnits < magUnits m + oneUnits) :
    magUnits (roundUnits (k * oneUnits) 1) = k * oneUnits ∧ roundUnits (k * oneUnits) 1 < infMag := by
  by_cases hlarge : 2 ^ 24 * oneUnits ≤ magUnits m
  · obtain ⟨j, hj⟩ := oneUnits_dvd_of_large hlarge
    have hk : k * oneUnits = magUnits m := by
      unfold oneUnits at *
      omega
    have hexact := roundUnits_exact Nat.one_pos hm.le
    rw [Nat.mul_one] at hexact
    rw [hk, hexact]
    exact ⟨rfl, hm⟩
  · have hk : k ≤ 2 ^ 24 := by unfold oneUnits at *; omega
    exact roundUnits_of_significand (q := 149) hk (by omega)

/-- The parts of a magnitude below 1 are the exact value of a finite magnitude. -/
theorem exists_magUnits_mod (m : Nat) : ∃ y, y < infMag ∧ magUnits y = magUnits m % oneUnits := by
  obtain ⟨q, c, -, -, hc, hm⟩ := exists_significand m
  obtain ⟨y, hy⟩ : ∃ y, magUnits y = magUnits m % oneUnits := by
    rw [hm]
    by_cases hq : 149 ≤ q
    · exact ⟨0, (Nat.mod_eq_zero_of_dvd (Dvd.dvd.mul_left (Nat.pow_dvd_pow 2 hq) c)).symm⟩
    · have hsplit : oneUnits = 2 ^ (149 - q) * 2 ^ q := by
        rw [← Nat.pow_add, Nat.sub_add_cancel (by omega)]; rfl
      rw [hsplit, Nat.mul_mod_mul_right]
      exact exists_magUnits_eq q ((Nat.mod_le _ _).trans hc.le)
  have hlt : magUnits m % oneUnits < oneUnits := Nat.mod_lt _ (Nat.two_pow_pos 149)
  exact ⟨y, lt_infMag_iff.mpr (by rw [hy]; unfold oneUnits at *; omega), hy⟩

section
variable {x : F32}

theorem ffloor_exact (hx : fIsFinite x = true) :
    fIsFinite (ffloor x) = true ∧ fvalue (ffloor x) = fvalue x / 2 ^ 149 * 2 ^ 149 := by
  have hfloor : ffloor x = fpack (decide (fvalue x / oneUnits < 0))
      (roundUnits ((fvalue x / oneUnits).natAbs * oneUnits) 1) := by
    simp [ffloor, fIsNaN_of_finite, fIsInf_of_finite, hx]
  have habs : ((fvalue x).natAbs : Int) = magUnits (fmag x) := by rw [← Int.abs_eq_natAbs, abs_fvalue]
  obtain ⟨hunits, hfin⟩ := roundUnits_near_integer (k := (fvalue x / oneUnits).natAbs) (fIsFinite_iff.mp hx)
    (by unfold oneUnits; omega) (by unfold oneUnits; omega)
  rw [hfloor, fIsFinite_fpack _ (roundUnits_lt _ _), fvalue_fpack _ (roundUnits_lt _ _), hunits, signed_mul_nat,
    signed_natAbs]
  exact ⟨hfin, rfl⟩

theorem ffrac_exact (hx : fIsFinite x = true) (h0 : 0 ≤ fvalue x) :
    fIsFinite (ffrac x) = true ∧ fvalue (ffrac x) = fvalue x - fvalue (ffloor x) := by
  obtain ⟨hfin, hval⟩ := ffloor_exact hx
  obtain ⟨y, hy, hunits⟩ := exists_magUnits_mod (fmag x)
  have hy31 : y < 2 ^ 31 := hy.trans (by decide)
  refine fsub_exact (y := fpack false y) hx hfin ((fIsFinite_fpack _ hy31).mpr hy) ?_
  rw [fvalue_fpack _ hy31, hunits, signed_false, hval]
  have habs := abs_fvalue x
  rw [abs_of_nonneg h0] at habs
  unfold oneUnits
  omega

theorem froundHa_exact (hx : fIsFinite x = true) : ∃ k : Nat, fIsFinite (froundHa x) = true ∧
    (froundHa x).msb = x.msb ∧ fvalue (froundHa x) = signed x.msb (k * 2 ^ 149) ∧
    2 * magUnits (fmag x) < 2 * (k * 2 ^ 149) + 2 ^ 149 ∧ 2 * (k * 2 ^ 149) ≤ 2 * magUnits (fmag x) + 2 ^ 149 := by
  obtain ⟨k, hk⟩ : ∃ k, k = (2 * magUnits (fmag x) + oneUnits) / (2 * oneUnits) := ⟨_, rfl⟩
  have hround : froundHa x = fpack x.msb (roundUnits (k * oneUnits) 1) := by
    simp [froundHa, fIsNaN_of_finite, fIsInf_of_finite, hx, hk, funits_eq]
  have hlo : 2 * magUnits (fmag x) < 2 * (k * oneUnits) + oneUnits := by unfold oneUnits at *; omega
  have hhi : 2 * (k * oneUnits) ≤ 2 * magUnits (fmag x) + oneUnits := by unfold oneUnits at *; omega
  obtain ⟨hunits, hfin⟩ := roundUnits_near_integer (k := k) (fIsFinite_iff.mp hx) (by omega)
    (by unfold oneUnits at *; omega)
  rw [hround, fIsFinite_fpack _ (roundUnits_lt _ _), msb_fpack _ (roundUnits_lt _ _),
    fvalue_fpack _ (roundUnits_lt _ _), hunits]
  exact ⟨k, hfin, rfl, rfl, hlo, hhi⟩
end

end Sys2Proof.Machine

namespace Sys2Proof.Machine

/-! ## The obligation on arithmetic -/

/-- The magnitude bits as the exponent and fraction fields give them. -/
theorem fmag_eq_fields (x : F32) :
    fmag x = (x.extractLsb' 23 8).toNat * 2 ^ 23 + (x.extractLsb' 0 23).toNat := by
  rw [BitVec.extractLsb'_toNat, BitVec.extractLsb'_toNat, Nat.shiftRight_eq_div_pow, Nat.shiftRight_zero]
  unfold fmag
  omega

/-- Finiteness, NaN and the value of a word from its sign, exponent and fraction fields. -/
theorem fields_meaning (x : F32) :
    let e := (x.extractLsb' 23 8).toNat
    let f := (x.extractLsb' 0 23).toNat
    fIsFinite x = decide (e < 255) ∧ fIsNaN x = decide (e = 255 ∧ f ≠ 0) ∧ fmag x = e * 2 ^ 23 + f ∧
    fvalue x = (if x.msb then -1 else 1) * (if e = 0 then f else (2 ^ 23 + f) * 2 ^ (e - 1) : Nat) := by
  intro e f
  have hm : fmag x = e * 2 ^ 23 + f := fmag_eq_fields x
  have he : e < 2 ^ 8 := (x.extractLsb' 23 8).isLt
  have hf : f < 2 ^ 23 := (x.extractLsb' 0 23).isLt
  have hunits : magUnits (fmag x) = if e = 0 then f else (2 ^ 23 + f) * 2 ^ (e - 1) := by
    unfold magUnits
    rw [show fmag x / 2 ^ 23 = e by omega, show fmag x % 2 ^ 23 = f by omega]
  refine ⟨decide_eq_decide.mpr ?_, decide_eq_decide.mpr ?_, hm, ?_⟩
  · unfold infMag; omega
  · unfold infMag; omega
  · rw [fvalue_eq, hunits]
    cases x.msb
    · exact (one_mul _).symm
    · exact (neg_one_mul _).symm

/-- The integer that `froundHa` gives is within one half, and at one half away it is the larger in magnitude. -/
theorem froundHa_nearest {x : F32} (hx : fIsFinite x = true) : ∃ k : Int, fIsFinite (froundHa x) = true ∧
    (froundHa x).msb = x.msb ∧ fvalue (froundHa x) = k * 2 ^ 149 ∧ 2 * |fvalue x - k * 2 ^ 149| ≤ 2 ^ 149 ∧
    (2 * |fvalue x - k * 2 ^ 149| = 2 ^ 149 → |fvalue x| < |k * 2 ^ 149|) := by
  obtain ⟨k, hfin, hmsb, hval, hlo, hhi⟩ := froundHa_exact hx
  have hk : signed x.msb (k * 2 ^ 149) = signed x.msb k * 2 ^ 149 := by rw [signed_mul_nat]; rfl
  refine ⟨signed x.msb k, hfin, hmsb, hval.trans hk, ?_⟩
  have hdist : |fvalue x - signed x.msb (k * 2 ^ 149)| = |(magUnits (fmag x) : Int) - (k * 2 ^ 149 : Nat)| := by
    rw [fvalue_eq]
    cases x.msb
    · rfl
    · rw [signed_true, signed_true, neg_sub_neg, abs_sub_comm]
  rw [← hk, hdist, abs_fvalue, abs_signed]
  rcases abs_cases ((magUnits (fmag x) : Int) - (k * 2 ^ 149 : Nat)) with ⟨habs, -⟩ | ⟨habs, -⟩ <;> omega

/-- Settles O50: each operation's exact result is rounded once, and `roundUnits` takes the nearest magnitude. -/
theorem arithmeticRounds : Obligations.ArithmeticRounds := by
  unfold Obligations.ArithmeticRounds
  refine ⟨fields_meaning, ?_, ?_, fun n hn => fofNat_exact hn, ?_, fun x lo hi => rfl, ?_, ?_⟩
  · intro a b ha hb
    exact ⟨fadd_finite_iff ha hb, fsub_finite_iff ha hb, fmul_finite_iff ha hb, fdiv_finite_iff ha hb,
      fadd_eq_zero ha hb, fsub_eq_zero ha hb, fmul_msb ha hb, fdiv_msb ha hb⟩
  · intro a b y ha hb hy
    refine ⟨fun h => ?_, fun h => ?_, fun h => fmul_nearest ha hb h y hy, fun h h0 => fdiv_nearest ha hb h0 h y hy⟩
    · simpa only [mul_one] using fadd_nearest ha hb h y hy
    · simpa only [mul_one] using fsub_nearest ha hb h y hy
  · intro a b ha hb
    exact ⟨fle_of_finite ha hb, flt_of_finite ha hb, feq_of_finite ha hb, fmin_of_finite ha hb, fmax_of_finite ha hb⟩
  · exact fun x => ⟨msb_fabs x, fmag_fabs x, msb_fneg x, fmag_fneg x⟩
  · intro x hx
    obtain ⟨hfin, hfloor⟩ := ffloor_exact hx
    exact ⟨⟨_, hfin, hfloor, by omega, by omega⟩, rfl, ffrac_exact hx, froundHa_nearest hx⟩

end Sys2Proof.Machine

namespace Sys2Proof.Machine

/-! ## Note frequencies -/

/-- The two middles next to NOTE_FREQ(k), to its neighbours among the finite values, lie on either side of
440·2^((k − 69)/12), compared by their 12th powers (00_scope.md R23). -/
def NoteFreqBetweenMiddles (k : BitVec 7) : Prop :=
  (880 * 2 ^ 149) ^ 12 * 2 ^ k.toNat ≤ (funits (noteFreq k) + magUnits (fmag (noteFreq k) + 1)) ^ 12 * 2 ^ 69 ∧
    (funits (noteFreq k) + magUnits (fmag (noteFreq k) - 1)) ^ 12 * 2 ^ 69 ≤ (880 * 2 ^ 149) ^ 12 * 2 ^ k.toNat

/-- The table of 128 words, entry by entry. -/
theorem noteFreq_table (k : BitVec 7) :
    NoteFreqBetweenMiddles k ∧ (noteFreq k).msb = false ∧ fIsFinite (noteFreq k) = true := by
  unfold NoteFreqBetweenMiddles
  revert k
  decide +kernel

theorem funits_lt_iff (x y : F32) : funits x < funits y ↔ fmag x < fmag y := magUnits_strictMono.lt_iff_lt

/-- Settles O51: the middle to any other value lies beyond the middle to the neighbour on its side. -/
theorem noteFrequencies : Obligations.NoteFrequencies := by
  unfold Obligations.NoteFrequencies
  refine ⟨fun k y _ _ => ?_, fun k => (noteFreq_table k).2, by decide, by decide⟩
  obtain ⟨⟨habove, hbelow⟩, -⟩ := noteFreq_table k
  refine ⟨fun h => habove.trans ?_, fun h => le_trans ?_ hbelow⟩
  · have hnext : magUnits (fmag (noteFreq k) + 1) ≤ funits y := magUnits_mono ((funits_lt_iff _ _).mp h)
    gcongr
  · have hprev : funits y ≤ magUnits (fmag (noteFreq k) - 1) :=
      magUnits_mono (Nat.le_pred_of_lt ((funits_lt_iff _ _).mp h))
    gcongr

end Sys2Proof.Machine

namespace Sys2Proof.Machine

/-! ## TANH -/

theorem clampNat_mem (c : Nat) {lo hi : Nat} (h : lo ≤ hi) : lo ≤ clampNat c lo hi ∧ clampNat c lo hi ≤ hi := by
  unfold clampNat
  omega

theorem monotoneChoice_mem (k node n : Nat) {lo hi : Nat} (h : lo ≤ hi) :
    lo ≤ monotoneChoice k node n lo hi ∧ monotoneChoice k node n lo hi ≤ hi := by
  induction k generalizing node lo hi with
  | zero => exact clampNat_mem _ h
  | succ k ih =>
    obtain ⟨hlo, hhi⟩ := clampNat_mem (Config.tanhChoice node) h
    rw [monotoneChoice]
    split
    · exact (ih (2 * node + 1) hhi).imp_left hlo.trans
    · exact (ih (2 * node) hlo).imp_right (·.trans hhi)

/-- The choices are monotone in the low `k` bits of the point, the only ones they look at. -/
theorem monotoneChoice_mono (k node : Nat) {m n lo hi : Nat} (h : lo ≤ hi) (hmn : m % 2 ^ k ≤ n % 2 ^ k) :
    monotoneChoice k node m lo hi ≤ monotoneChoice k node n lo hi := by
  induction k generalizing node lo hi with
  | zero => exact le_rfl
  | succ k ih =>
    obtain ⟨hlo, hhi⟩ := clampNat_mem (Config.tanhChoice node) h
    have hmlt := Nat.mod_lt m (Nat.two_pow_pos k)
    have hnlt := Nat.mod_lt n (Nat.two_pow_pos k)
    rw [Nat.mod_pow_succ, Nat.mod_pow_succ, ← Nat.toNat_testBit, ← Nat.toNat_testBit] at hmn
    rw [monotoneChoice, monotoneChoice]
    cases hm : m.testBit k <;> cases hn : n.testBit k <;> simp only [hm, hn, Bool.toNat_false, Bool.toNat_true,
      mul_zero, mul_one, add_zero] at hmn
    · exact ih (2 * node) hlo (by omega)
    · exact (monotoneChoice_mem k (2 * node) m hlo).2.trans (monotoneChoice_mem k (2 * node + 1) n hhi).1
    · omega
    · exact ih (2 * node + 1) hhi (by omega)

/-- The magnitude bits of TANH, a zero's included. -/
def tanhBits (m : Nat) : Nat := if m = 0 then 0 else tanhMag m

theorem tanhBits_le (m : Nat) : tanhBits m ≤ 0x3F800000 := by
  unfold tanhBits
  split
  · exact Nat.zero_le _
  · exact (monotoneChoice_mem 31 1 m (Nat.zero_le _)).2

theorem tanhBits_mono (m n : Nat) (h : m ≤ n) (hn : n < 2 ^ 31) : tanhBits m ≤ tanhBits n := by
  unfold tanhBits
  by_cases hm : m = 0
  · rw [if_pos hm]; exact Nat.zero_le _
  · rw [if_neg hm, if_neg (by omega)]
    refine monotoneChoice_mono 31 1 (Nat.zero_le _) ?_
    rwa [Nat.mod_eq_of_lt hn, Nat.mod_eq_of_lt (h.trans_lt hn)]

theorem tanh_of_finite {x : F32} (hx : fIsFinite x = true) : tanh x = fpack x.msb (tanhBits (fmag x)) := by
  unfold tanh tanhBits
  rw [hx]
  by_cases h0 : fmag x = 0
  · have hpack := fpack_msb_fmag x
    rw [h0] at hpack
    simp [h0, hpack]
  · simp [h0]

theorem fkey_tanh {x : F32} (hx : fIsFinite x = true) : fkey (tanh x) = signed x.msb (tanhBits (fmag x)) := by
  have hlt : tanhBits (fmag x) < 2 ^ 31 := (tanhBits_le _).trans_lt (by decide)
  rw [tanh_of_finite hx, fkey_eq, msb_fpack _ hlt, fmag_fpack _ hlt]

theorem isSample_tanh {x : F32} (hx : fIsFinite x = true) : IsSample (tanh x) :=
  tanh_of_finite hx ▸ isSample_fpack _ (tanhBits_le _)

theorem tanh_fneg {x : F32} (hx : fIsFinite x = true) : tanh (fneg x) = fneg (tanh x) := by
  rw [tanh_of_finite hx, tanh_of_finite (by simpa using hx), msb_fneg, fmag_fneg,
    fneg_fpack _ ((tanhBits_le _).trans_lt (by decide))]

/-- Settles O53: on finite values TANH keeps the sign and takes the magnitude through the monotone `tanhBits`. -/
theorem tanhProperties : Obligations.TanhProperties := by
  unfold Obligations.TanhProperties
  refine ⟨fun x hx => ⟨isSample_tanh hx, tanh_fneg hx⟩, tanh_of_finite (x := f0) (by decide), fun x y hx hy hxy => ?_⟩
  have hkey : fkey x ≤ fkey y := by
    rwa [fle_of_finite hx hy, decide_eq_true_eq, fvalue_le_iff] at hxy
  rw [fle_of_finite (fIsFinite_of_isSample (isSample_tanh hx)) (fIsFinite_of_isSample (isSample_tanh hy)),
    decide_eq_true_eq, fvalue_le_iff, fkey_tanh hx, fkey_tanh hy]
  exact signed_le_signed tanhBits_mono rfl (fmag_lt x) (fmag_lt y) hkey

end Sys2Proof.Machine

namespace Sys2Proof.Machine

/-! ## SIN_T -/

theorem fvalue_fQuarter : fvalue fQuarter = 2 ^ 147 :=
  (fvalue_of_significand (q := 124) (c := 2 ^ 23) (by decide) (by decide) (by decide)).trans (by norm_num)

theorem fvalue_fHalf : fvalue fHalf = 2 ^ 148 :=
  (fvalue_of_significand (q := 125) (c := 2 ^ 23) (by decide) (by decide) (by decide)).trans (by norm_num)

theorem fvalue_f1 : fvalue f1 = 2 ^ 149 :=
  (fvalue_of_significand (q := 126) (c := 2 ^ 23) (by decide) (by decide) (by decide)).trans (by norm_num)

theorem fvalue_f1p25 : fvalue f1p25 = 5 * 2 ^ 147 :=
  (fvalue_of_significand (q := 126) (c := 5 * 2 ^ 21) (by decide) (by decide) (by decide)).trans (by norm_num)

theorem fvalue_threeQuarters : fvalue 0x3F400000 = 3 * 2 ^ 147 :=
  (fvalue_of_significand (q := 125) (c := 3 * 2 ^ 22) (by decide) (by decide) (by decide)).trans (by norm_num)

theorem fvalue_f0 : fvalue f0 = 0 := rfl

section
variable {x y : F32}

theorem isSample_sinQuarter (x : F32) : IsSample (sinQuarter x) := by
  unfold sinQuarter
  split
  · decide
  split
  · decide
  · exact isSample_fpack _ (Nat.le_of_lt_succ (Config.sinFree x).2.isLt)

theorem isSample_sinHalf (x : F32) : IsSample (sinHalf x) := by
  unfold sinHalf
  split <;> exact isSample_sinQuarter _

theorem isSample_sinT (h0 : fle f0 x = true) (h1 : fle x f1p25 = true) : IsSample (sinT x) := by
  unfold sinT
  rw [h0, h1]
  simp only [Bool.and_self, Bool.not_true, Bool.false_eq_true, if_false]
  split
  · exact isSample_sinHalf x
  split
  · exact isSample_fneg (isSample_sinHalf _)
  split
  · decide
  · exact isSample_fpack _ (Nat.le_of_lt_succ (Config.sinFree x).2.isLt)

/-- SIN_T on [0, 0.25] gives both zeros one value, so it depends on the argument's value only. -/
theorem sinQuarter_congr (hx : fIsFinite x = true) (hy : fIsFinite y = true) (h : fvalue x = fvalue y) :
    sinQuarter x = sinQuarter y := by
  by_cases h0 : fvalue x = 0
  · have hzero : ∀ z, fIsFinite z = true → fvalue z = 0 → sinQuarter z = f0 := fun z hz hz0 => by
      rw [sinQuarter, feq_of_finite hz (by decide), hz0]; rfl
    rw [hzero x hx h0, hzero y hy (h ▸ h0)]
  · rw [eq_of_fvalue_eq h h0]

theorem sinHalf_lower (hx : fIsFinite x = true) (h : fvalue x ≤ 2 ^ 147) : sinHalf x = sinQuarter x := by
  rw [sinHalf, fle_of_finite hx (by decide), fvalue_fQuarter, decide_eq_true h, if_pos rfl]

/-- On (0.25, 0.5] the argument of the reflection is exact wherever it is a finite value. -/
theorem sinHalf_upper (hx : fIsFinite x = true) (hy : fIsFinite y = true) (h : 2 ^ 147 < fvalue x)
    (hxy : fvalue y = fvalue fHalf - fvalue x) : sinHalf x = sinQuarter y := by
  obtain ⟨hfin, hval⟩ := fsub_exact (by decide) hx hy hxy
  rw [sinHalf, fle_of_finite hx (by decide), fvalue_fQuarter, decide_eq_false (by omega), if_neg Bool.false_ne_true]
  exact sinQuarter_congr hfin hy (hval.trans hxy.symm)

/-- The half-turn arch is symmetric about the quarter turn. -/
theorem sinHalf_reflect (hx : fIsFinite x = true) (hy : fIsFinite y = true) (hxy : fvalue y = fvalue fHalf - fvalue x) :
    sinHalf y = sinHalf x := by
  have hhalf := fvalue_fHalf
  rcases lt_trichotomy (fvalue x) (2 ^ 147) with h | h | h
  · rw [sinHalf_upper hy hx (by omega) (by omega), sinHalf_lower hx h.le]
  · rw [sinHalf_lower hx h.le, sinHalf_lower hy (by omega), sinQuarter_congr hy hx (by omega)]
  · rw [sinHalf_upper hx hy h hxy, sinHalf_lower hy (by omega)]

theorem sinT_of_le_half (hx : fIsFinite x = true) (h0 : 0 ≤ fvalue x) (h : fvalue x ≤ 2 ^ 148) :
    sinT x = sinHalf x := by
  rw [sinT, fle_of_finite (by decide) hx, fle_of_finite hx (by decide), fle_of_finite hx (by decide), fvalue_f0,
    fvalue_f1p25, fvalue_fHalf, decide_eq_true h0, decide_eq_true h, decide_eq_true (by omega)]
  rfl

theorem sinT_of_gt_half (hx : fIsFinite x = true) (h : 2 ^ 148 < fvalue x) (h1 : fvalue x < 2 ^ 149) :
    sinT x = fneg (sinHalf (fsub x fHalf)) := by
  rw [sinT, fle_of_finite (by decide) hx, fle_of_finite hx (by decide), fle_of_finite hx (by decide),
    flt_of_finite hx (by decide), fvalue_f0, fvalue_f1p25, fvalue_fHalf, fvalue_f1, decide_eq_true (by omega),
    decide_eq_true (by omega), decide_eq_false (by omega), decide_eq_true h1]
  rfl

/-- SIN_T(0.5 − x) = SIN_T(x) (00_scope.md R22). -/
theorem sinT_reflect (h0 : fle f0 x = true) (h : fle x fHalf = true) (hy : fIsFinite y = true)
    (hxy : fvalue y = fvalue fHalf - fvalue x) : sinT y = sinT x := by
  have hx : fIsFinite x = true := fIsFinite_of_between (by decide) h0 h
  rw [fle_of_finite (by decide) hx, fvalue_f0, decide_eq_true_eq] at h0
  rw [fle_of_finite hx (by decide), fvalue_fHalf, decide_eq_true_eq] at h
  have hhalf := fvalue_fHalf
  rw [sinT_of_le_half hx h0 h, sinT_of_le_half hy (by omega) (by omega)]
  exact sinHalf_reflect hx hy hxy

/-- SIN_T(x + 0.5) = −SIN_T(x) (00_scope.md R22); at x = 0 both sides are zeros. -/
theorem sinT_half_turn (h0 : fle f0 x = true) (h : flt x fHalf = true) (hy : fIsFinite y = true)
    (hxy : fvalue y = fvalue x + fvalue fHalf) : feq (sinT y) (fneg (sinT x)) = true := by
  have hx : fIsFinite x = true := fIsFinite_of_between (by decide) h0 (fle_of_flt h)
  rw [fle_of_finite (by decide) hx, fvalue_f0, decide_eq_true_eq] at h0
  rw [flt_of_finite hx (by decide), fvalue_fHalf, decide_eq_true_eq] at h
  have hhalf := fvalue_fHalf
  rw [sinT_of_le_half hx h0 h.le]
  by_cases hz : fvalue x = 0
  · obtain rfl : y = fHalf := eq_of_fvalue_eq (by omega) (by omega)
    have hx0 : sinHalf x = f0 :=
      (sinHalf_lower hx (by omega)).trans (sinQuarter_congr hx (y := f0) (by decide) hz)
    rw [hx0]
    decide
  · obtain ⟨-, hval⟩ := fsub_exact hy (by decide) hx (y := x) (b := fHalf) (by omega)
    have hshift : fsub y fHalf = x := eq_of_fvalue_eq (by omega) (by omega)
    have hfin : fIsFinite (fneg (sinHalf x)) = true := fIsFinite_of_isSample (isSample_fneg (isSample_sinHalf x))
    rw [sinT_of_gt_half hy (by omega) (by omega), hshift, feq_of_finite hfin hfin, decide_eq_true rfl]
end

theorem sinT_f0 : sinT f0 = f0 := by decide

theorem sinT_fQuarter : sinT fQuarter = f1 := by decide

theorem sinT_fHalf : sinT fHalf = f0 :=
  (sinT_reflect (by decide) (by decide) (by decide) (by rw [fvalue_f0, sub_zero])).trans sinT_f0

theorem sinT_threeQuarters : sinT 0x3F400000 = fneg f1 := by
  have hval := fvalue_threeQuarters
  have hquarter := fvalue_fQuarter
  have hhalf := fvalue_fHalf
  obtain ⟨-, hsub⟩ := fsub_exact (a := 0x3F400000) (b := fHalf) (y := fQuarter) (by decide) (by decide) (by decide)
    (by omega)
  have hshift : fsub 0x3F400000 fHalf = fQuarter := eq_of_fvalue_eq (by omega) (by omega)
  rw [sinT_of_gt_half (by decide) (by omega) (by omega), hshift]
  decide

theorem sinT_f1 : sinT f1 = f0 := by decide

/-- Settles O52: the symmetries hold by the reflections that `sinHalf` and `sinT` take their arguments through, exact
wherever the shifted argument is a finite value. -/
theorem sineProperties : Obligations.SineProperties := by
  unfold Obligations.SineProperties
  exact ⟨fun x => isSample_sinT, sinT_f0, sinT_fQuarter, sinT_fHalf, sinT_threeQuarters, sinT_f1,
    fun x y => sinT_reflect, fun x y => sinT_half_turn⟩

end Sys2Proof.Machine

/-!
SUPPORT. The address map of 20_memory.md R152: what `locate` names in each of its windows, by byte address.
-/

namespace Sys2Proof

/-- A number that fits the width is kept by `BitVec.ofNat`. -/
theorem toNat_ofNat_of_lt {w n : Nat} (h : n < 2 ^ w) : (BitVec.ofNat w n).toNat = n := by
  rw [BitVec.toNat_ofNat, Nat.mod_eq_of_lt h]

section
variable (P : Params)

theorem locate_control {n : Nat} (ha : n % 4 = 0) (hn : n < 0x40) :
    locate P (BitVec.ofNat 20 n) = controlLocs.getD (n / 4) .unmapped := by
  simp only [locate, toNat_ofNat_of_lt (show n < 2 ^ 20 by omega)]
  rw [if_neg (by omega), if_pos hn]

theorem locate_config {n : Nat} (ha : n % 4 = 0) (hlo : 0x100 ≤ n) (hhi : n < 0x180) :
    locate P (BitVec.ofNat 20 n) = configLocs.getD ((n - 0x100) / 4) .unmapped := by
  simp only [locate, toNat_ofNat_of_lt (show n < 2 ^ 20 by omega)]
  rw [if_neg (by omega), if_neg (by omega), if_pos ⟨hlo, hhi⟩]

theorem locate_freg (r : FReg) : locate P (BitVec.ofNat 20 r.addr) = .flt r := by
  rw [locate_config P (by cases r <;> rfl) (by cases r <;> decide) (by cases r <;> decide)]
  cases r <;> rfl

theorem locate_preset_window {n : Nat} (ha : n % 4 = 0) (hlo : 0x800 ≤ n) (hhi : n < 0x1000) :
    locate P (BitVec.ofNat 20 n) = locatePreset P (BitVec.ofNat 20 n) := by
  simp only [locate, toNat_ofNat_of_lt (show n < 2 ^ 20 by omega)]
  rw [if_neg (by omega), if_neg (by omega), if_neg (by omega), if_pos ⟨hlo, hhi⟩]

/-- A field of a bus address, by division: `k` is the weight of its lowest bit. -/
theorem extractLsb'_busAddr {n start len k m : Nat} (hn : n < 2 ^ 20) (hk : 2 ^ start = k)
    (h : n / k % 2 ^ len = m % 2 ^ len) :
    (BitVec.ofNat 20 n).extractLsb' start len = BitVec.ofNat len m := by
  apply BitVec.eq_of_toNat_eq
  rw [BitVec.extractLsb'_toNat, toNat_ofNat_of_lt hn, BitVec.toNat_ofNat, Nat.shiftRight_eq_div_pow, hk, h]

theorem getLsbD_busAddr {n i : Nat} (hi : i < 20) : (BitVec.ofNat 20 n).getLsbD i = decide (n / 2 ^ i % 2 = 1) := by
  rw [BitVec.getLsbD_ofNat, decide_eq_true hi, Bool.true_and, Nat.testBit_eq_decide_div_mod_eq]

theorem locate_presetCount (hP : P.legal) {p : Nat} (hp : p < P.numPresets) :
    locate P (BitVec.ofNat 20 (0x800 + 0x100 * p)) = .presetCount (BitVec.ofNat 3 p) := by
  obtain ⟨-, -, hpresets, -⟩ := hP
  have hpreset : (BitVec.ofNat 20 (0x800 + 0x100 * p)).extractLsb' 8 3 = BitVec.ofNat 3 p :=
    extractLsb'_busAddr (by omega) rfl (by omega)
  have hlow : (BitVec.ofNat 20 (0x800 + 0x100 * p)).extractLsb' 0 8 = 0 :=
    extractLsb'_busAddr (m := 0) (by omega) rfl (by omega)
  have hcount : (BitVec.ofNat 20 (0x800 + 0x100 * p)).getLsbD 7 = false := by
    rw [getLsbD_busAddr (by omega), decide_eq_false (by omega)]
  rw [locate_preset_window P (by omega) (by omega) (by omega)]
  simp only [locatePreset, hpreset, hlow, hcount, toNat_ofNat_of_lt (show p < 2 ^ 3 by omega), hp,
    Bool.false_eq_true, if_true, if_false]

theorem locate_presetField (hP : P.legal) {p o f : Nat} (hp : p < P.numPresets) (ho : o < P.oscMax) (hf : f < 4) :
    locate P (BitVec.ofNat 20 (0x880 + 0x100 * p + 0x10 * o + 4 * f)) =
      .presetField (BitVec.ofNat 3 p) (BitVec.ofNat 3 o) (PField.ofSelect (BitVec.ofNat 2 f)) := by
  obtain ⟨-, hosc, hpresets, -⟩ := hP
  have hn : 0x880 + 0x100 * p + 0x10 * o + 4 * f < 2 ^ 20 := by omega
  have hpreset := extractLsb'_busAddr (start := 8) (len := 3) (m := p) hn rfl (by omega)
  have hslot := extractLsb'_busAddr (start := 4) (len := 3) (m := o) hn rfl (by omega)
  have hfield := extractLsb'_busAddr (start := 2) (len := 2) (m := f) hn rfl (by omega)
  have hslots : (BitVec.ofNat 20 (0x880 + 0x100 * p + 0x10 * o + 4 * f)).getLsbD 7 = true := by
    rw [getLsbD_busAddr (by omega), decide_eq_true (by omega)]
  rw [locate_preset_window P (by omega) (by omega) (by omega)]
  simp only [locatePreset, hpreset, hslot, hfield, hslots, toNat_ofNat_of_lt (show p < 2 ^ 3 by omega),
    toNat_ofNat_of_lt (show o < 2 ^ 3 by omega), hp, ho, if_true]

theorem locate_voice (hP : P.legal) {v j : Nat} (hv : v < P.voiceMax) (hj : j < 8) :
    locate P (BitVec.ofNat 20 (0x1000 + 0x20 * v + 4 * j)) = .voice v j := by
  obtain ⟨hvoice, -⟩ := hP
  simp only [locate, toNat_ofNat_of_lt (show 0x1000 + 0x20 * v + 4 * j < 2 ^ 20 by omega)]
  rw [if_neg (by omega), if_neg (by omega), if_neg (by omega), if_neg (by omega), if_pos (by omega),
    show (0x1000 + 0x20 * v + 4 * j - 0x1000) / 0x20 = v by omega,
    show (0x1000 + 0x20 * v + 4 * j) % 0x20 / 4 = j by omega]

theorem locate_osc (hP : P.legal) {v o j : Nat} (hv : v < P.voiceMax) (ho : o < P.oscMax) (hj : j < 16) :
    locate P (BitVec.ofNat 20 (0x4000 + 0x200 * v + 0x40 * o + 4 * j)) = .osc v o j := by
  obtain ⟨hvoice, hosc, -⟩ := hP
  have hslot : (0x4000 + 0x200 * v + 0x40 * o + 4 * j) % 0x200 / 0x40 = o := by omega
  simp only [locate, toNat_ofNat_of_lt (show 0x4000 + 0x200 * v + 0x40 * o + 4 * j < 2 ^ 20 by omega)]
  rw [if_neg (by omega), if_neg (by omega), if_neg (by omega), if_neg (by omega), if_neg (by omega), if_pos (by omega),
    hslot, if_pos ho, show (0x4000 + 0x200 * v + 0x40 * o + 4 * j - 0x4000) / 0x200 = v by omega,
    show (0x4000 + 0x200 * v + 0x40 * o + 4 * j) % 0x40 / 4 = j by omega]

theorem locate_vis (hP : P.legal) {i : Nat} (hi : i < P.visCap) :
    locate P (BitVec.ofNat 20 (0x8000 + 4 * i)) = .vis i := by
  obtain ⟨hvoice, -, -, -, hvis, -⟩ := hP
  simp only [locate, toNat_ofNat_of_lt (show 0x8000 + 4 * i < 2 ^ 20 by omega)]
  rw [if_neg (by omega), if_neg (by omega), if_neg (by omega), if_neg (by omega), if_neg (by omega), if_neg (by omega),
    if_pos (by omega), show (0x8000 + 4 * i - 0x8000) / 4 = i by omega]

theorem locate_dly (hP : P.legal) {i : Nat} (hi : i < P.delayCap) :
    locate P (BitVec.ofNat 20 (0x40000 + 4 * i)) = .dly i := by
  obtain ⟨hvoice, -, -, hdelay, hvis, -⟩ := hP
  simp only [locate, toNat_ofNat_of_lt (show 0x40000 + 4 * i < 2 ^ 20 by omega)]
  rw [if_neg (by omega), if_neg (by omega), if_neg (by omega), if_neg (by omega), if_neg (by omega), if_neg (by omega),
    if_neg (by omega), if_pos (by omega), show (0x40000 + 4 * i - 0x40000) / 4 = i by omega]
end

end Sys2Proof

/-!
SUPPORT. Floating-point registers and preset fields (10_state.md R102, R104, R107): the ranges of their tables, what a
write stores over an old value, and the write of a register.
-/

namespace Sys2Proof.Machine

/-! ## Ranges and the value a write stores -/

/-- `lo` and `hi` are the ends of a range of numbers without a sign bit. -/
def ProperRange (lo hi : F32) : Prop := lo.toNat ≤ hi.toNat ∧ hi.toNat < infMag

theorem fregRange_proper (r : FReg) : ProperRange (fregLo r) (fregHi r) := by
  unfold ProperRange
  cases r <;> decide

theorem pfieldRange_proper (f : PField) : ProperRange (pfieldLo f) (pfieldHi f) := by
  unfold ProperRange
  cases f <;> decide

/-- A word whose bits are below those of +infinity is a number, and its place in the order is its bits. -/
theorem fkey_of_toNat_lt {x : F32} (h : x.toNat < infMag) : fIsNaN x = false ∧ fkey x = x.toNat := by
  have hinf : infMag = 0x7F800000 := rfl
  have hmag : fmag x = x.toNat := Nat.mod_eq_of_lt (by omega)
  have hmsb : x.msb = false := by
    rw [BitVec.msb_eq_decide, decide_eq_false_iff_not]
    omega
  rw [fkey_eq, hmsb, signed_false, hmag]
  exact ⟨decide_eq_false (by omega), rfl⟩

/-- A number other than −0.0 whose place in the order is not below zero has no sign bit. -/
theorem toNat_of_fkey_nonneg {x : F32} (hz : x ≠ 0x80000000) (h : 0 ≤ fkey x) : fkey x = x.toNat := by
  rw [fkey_eq] at h ⊢
  rw [toNat_eq_msb_fmag x]
  cases hs : x.msb with
  | false => simp
  | true =>
    rw [hs, signed_true] at h
    exact absurd (eq_of_msb_fmag (y := 0x80000000) hs (by rw [show fmag x = 0 by omega]; rfl)) hz

/-- Clamping a number other than −0.0 gives a number of the range (00_scope.md R21). -/
theorem inRange_fclamp {lo hi x : F32} (hr : ProperRange lo hi) (hn : fIsNaN x = false) (hz : x ≠ 0x80000000) :
    InRange lo hi (fclamp x lo hi) := by
  obtain ⟨hle, htop⟩ := hr
  obtain ⟨hlon, hlok⟩ := fkey_of_toNat_lt (hle.trans_lt htop)
  obtain ⟨hhin, hhik⟩ := fkey_of_toNat_lt htop
  have hlohi : fle lo hi = true := fle_iff.mpr ⟨hlon, hhin, by omega⟩
  unfold fclamp
  by_cases hx : fkey lo ≤ fkey x
  · have hkey := toNat_of_fkey_nonneg hz (by omega)
    rw [fmax, if_pos (fle_iff.mpr ⟨hlon, hn, hx⟩), fmin]
    split
    case isTrue hxhi =>
      obtain ⟨-, -, hxhi⟩ := fle_iff.mp hxhi
      constructor <;> omega
    case isFalse => exact ⟨hle, le_rfl⟩
  · rw [fmax, if_neg (fun h => hx (fle_iff.mp h).2.2), fmin, if_pos hlohi]
    exact ⟨le_rfl, hle⟩

/-- What a write stores, by the fields of the word: the old value for a NaN, else the clamped word, −0.0 taken as +0.0
(10_state.md R104). -/
theorem writtenF32_eq (lo hi old w : F32) : writtenF32 lo hi old w =
    if w.extractLsb' 23 8 = 0xFF ∧ w.extractLsb' 0 23 ≠ 0 then old
    else fclamp (if w = 0x80000000 then 0 else w) lo hi := by
  have hnan : fIsNaN w = decide (w.extractLsb' 23 8 = 0xFF ∧ w.extractLsb' 0 23 ≠ 0) := by
    rw [(fields_meaning w).2.1]
    simp [BitVec.toNat_eq]
  rw [writtenF32, hnan]
  by_cases h : w.extractLsb' 23 8 = 0xFF ∧ w.extractLsb' 0 23 ≠ 0
  · rw [decide_eq_true h, if_pos rfl, if_pos h]
  · rw [decide_eq_false h, if_neg Bool.false_ne_true, if_neg h]
    split <;> rfl

theorem writtenF32_inRange {lo hi old : F32} (hr : ProperRange lo hi) (w : F32) (hold : InRange lo hi old) :
    InRange lo hi (writtenF32 lo hi old w) := by
  unfold writtenF32
  split
  case isTrue => exact hold
  case isFalse hn =>
    split
    case isTrue => exact inRange_fclamp hr (by decide) (by decide)
    case isFalse hz => exact inRange_fclamp hr (Bool.eq_false_of_not_eq_true hn) hz

/-- Settles O24: the tables row by row; a stored value is the old one or a clamped number. -/
theorem storedFloatInRange : Obligations.StoredFloatInRange := by
  unfold Obligations.StoredFloatInRange
  refine ⟨fun r => ?_, fun f => ?_, fun R => ⟨rfl, rfl⟩, fun W => rfl,
    fun r old w => writtenF32_inRange (fregRange_proper r) w, fun f old w => writtenF32_inRange (pfieldRange_proper f) w⟩
  · cases r <;> decide
  · cases f <;> decide

/-! ## The write of a floating-point register -/

theorem decode_freg_write (P : Params) (r : FReg) (w : Word) :
    decode P (.bus (busWord true (BitVec.ofNat 20 r.addr) w)) = r.write w := by
  have haligned : aligned (BitVec.ofNat 20 r.addr) = true := by cases r <;> rfl
  change decodeBus P _ = _
  rw [decodeBus_write _ _ _ haligned, decodeWrite, locate_freg]

theorem exec_freg_write (r : FReg) (w : Word) (s : State) : exec (r.write w) s = .next (writeFReg r w s) := by
  cases r <;> rfl

/-- Settles O23: the write replaces one register of the pending copy by `writtenF32` of the old value and the word. -/
theorem writeFloat : Obligations.WriteFloat := by
  unfold Obligations.WriteFloat
  intro r w s
  refine ⟨decode_freg_write s.params r w, s.pend.setF r (writtenF32 (fregLo r) (fregHi r) (s.pend.getF r) w),
    exec_freg_write r w s, ?_, fun r' h => Regs.getF_setF_other _ _ h, fun n => Regs.iregWord_setF _ _ _ n,
    Regs.presets_setF _ _ _, rfl, ?_⟩
  · rw [Regs.getF_setF_same, writtenF32_eq]
  · rw [Regs.getF_setF_same]
    exact writtenF32_inRange (fregRange_proper r) w

end Sys2Proof.Machine

/-!
SUPPORT. The layouts of the status words (10_state.md R113, R120, R121), field by field, and the codes they hold.
-/

namespace Sys2Proof.Machine

/-! ## STATUS -/

theorem statusFlags_bits (s : State) :
    (statusFlags s).getLsbD 0 = s.run ∧ (statusFlags s).getLsbD 1 = s.busy ∧ (statusFlags s).getLsbD 2 = s.cfgErr ∧
    (statusFlags s).getLsbD 3 = s.busErr ∧ (statusFlags s).getLsbD 4 = s.renderErr ∧
    (statusFlags s).getLsbD 5 = s.qfull ∧ (statusFlags s).getLsbD 6 = s.qempty ∧
    (statusFlags s).getLsbD 7 = s.stopPending := by
  unfold statusFlags
  simp only [BitVec.getLsbD_append, BitVec.getLsbD_ofBool]
  simp

theorem statusWord_getLsbD (s : State) {i : Nat} (hi : i < 8) :
    (statusWord s).getLsbD i = (statusFlags s).getLsbD i := by
  rw [statusWord, BitVec.getLsbD_append, if_pos hi]

theorem statusWord_bytes (s : State) :
    (statusWord s).extractLsb' 8 8 = BitVec.ofNat 8 s.queue.length ∧ (statusWord s).extractLsb' 16 8 = 0 ∧
    (statusWord s).extractLsb' 24 8 = s.lastErr := by
  unfold statusWord
  simp (disch := omega) only [BitVec.extractLsb'_append_eq_of_le, BitVec.extractLsb'_append_eq_of_add_le]
  simp

theorem State.qfull_eq (s : State) : s.qfull = decide (s.queue.length = s.params.cmdqDepth) := beq_eq_decide _ _

theorem State.qempty_eq (s : State) : s.qempty = decide (s.queue.length = 0) := beq_eq_decide _ _

/-! ## VSTAT and OSTAT -/

theorem EnvState.code_lt (e : EnvState) : e.code < 5 := by cases e <;> decide

theorem VoiceClass.code_lt (c : VoiceClass) : c.code < 4 := by cases c <;> decide

theorem WaveKind.code_lt (w : WaveKind) : w.code < 7 := by cases w <;> decide

theorem vstatWord_fields (v : Voice) :
    (vstatWord v).getLsbD 0 = v.active ∧ (vstatWord v).extractLsb' 1 3 = BitVec.ofNat 3 v.envState.code ∧
    (vstatWord v).extractLsb' 4 2 = BitVec.ofNat 2 v.voiceClass.code ∧ (vstatWord v).extractLsb' 6 2 = 0 ∧
    (vstatWord v).extractLsb' 8 8 = keyByte v.key ∧ (vstatWord v).extractLsb' 16 4 = BitVec.ofNat 4 v.preset ∧
    (vstatWord v).extractLsb' 20 4 = BitVec.ofNat 4 v.count ∧ (vstatWord v).extractLsb' 24 8 = 0 := by
  unfold vstatWord
  simp (disch := omega) only [BitVec.extractLsb'_append_eq_of_le, BitVec.extractLsb'_append_eq_of_add_le,
    BitVec.getLsbD_append, BitVec.getLsbD_ofBool]
  simp

theorem ostatWord_fields (o : Osc) :
    (ostatWord o).extractLsb' 0 3 = BitVec.ofNat 3 o.wave.code ∧ (ostatWord o).getLsbD 3 = false ∧
    (ostatWord o).extractLsb' 4 3 = BitVec.ofNat 3 o.envState.code ∧ (ostatWord o).extractLsb' 7 25 = 0 := by
  unfold ostatWord
  simp (disch := omega) only [BitVec.extractLsb'_append_eq_of_le, BitVec.extractLsb'_append_eq_of_add_le,
    BitVec.getLsbD_append]
  simp

/-- Every class has its case of R55: held, else releasing, else by the key. -/
theorem voiceClass_cases (v : Voice) :
    (v.active = true → v.voiceClass = .held) ∧
    (v.active = false → (v.osc 0).envState = .release → v.voiceClass = .releasing) ∧
    (v.active = false → (v.osc 0).envState ≠ .release → v.key = none → v.voiceClass = .idle) ∧
    (v.active = false → (v.osc 0).envState ≠ .release → v.key ≠ none → v.voiceClass = .silent) := by
  unfold Voice.voiceClass Voice.envState
  refine ⟨fun ha => ?_, fun ha he => ?_, fun ha he hk => ?_, fun ha he hk => ?_⟩ <;> simp [*]

/-- Settles O14: each word is read field by field, and each field is wide enough for what it holds. -/
theorem statusLayouts : Obligations.StatusLayouts := by
  unfold Obligations.StatusLayouts
  refine ⟨fun s hq => ?_, fun v hpreset hcount => ?_, fun o => ?_, fun v => ?_, rfl, rfl, rfl,
    fun s => ⟨rfl, fun v h => List.getD_eq_getElem _ _ h⟩, fun R => ⟨rfl, rfl, rfl, fun p h => List.getD_eq_getElem _ _ h⟩,
    fun Q o h => List.getD_eq_getElem _ _ h⟩
  · obtain ⟨hrun, hbusy, hcfg, hbus, hrender, hfull, hempty, hstop⟩ := statusFlags_bits s
    obtain ⟨hlevel, hzero, herr⟩ := statusWord_bytes s
    rw [s.qfull_eq] at hfull
    rw [s.qempty_eq] at hempty
    simp only [statusWord_getLsbD s, Nat.reduceLT]
    exact ⟨hrun, hbusy, hcfg, hbus, hrender, hfull, hempty, hstop, hlevel ▸ toNat_ofNat_of_lt (by omega), hzero, herr⟩
  · obtain ⟨hactive, henv, hclass, hpad, hkey, hpre, hcnt, hzero⟩ := vstatWord_fields v
    have henvlt := v.envState.code_lt
    have hclasslt := v.voiceClass.code_lt
    rw [henv, hclass, hpre, hcnt]
    exact ⟨hactive, toNat_ofNat_of_lt (by omega), toNat_ofNat_of_lt (by omega), hpad, hkey,
      toNat_ofNat_of_lt hpreset, toNat_ofNat_of_lt hcount, hzero⟩
  · obtain ⟨hwave, hpad, henv, hzero⟩ := ostatWord_fields o
    have hwavelt := o.wave.code_lt
    have henvlt := o.envState.code_lt
    rw [hwave, henv]
    exact ⟨toNat_ofNat_of_lt (by omega), hpad, toNat_ofNat_of_lt (by omega), hzero⟩
  · obtain ⟨hheld, hreleasing, hidle, hsilent⟩ := voiceClass_cases v
    exact ⟨hheld, hreleasing, hidle, hsilent, rfl, fun o h => List.getD_eq_getElem _ _ h⟩

end Sys2Proof.Machine

/-!
SUPPORT. Reads (20_memory.md R153-R162, 40_host_commands.md R251): what a read of a location returns, and the words of
the constants, SEL, MODE and VEL_T as numbers.
-/

namespace Sys2Proof.Machine

/-! ## A read, by what its address names -/

/-- A read at byte address `n` returns `w` and changes nothing else. -/
def ReadsExact (s : State) (n : Nat) (w : Word) : Prop :=
  exec (.rd (BitVec.ofNat 20 n)) s = .next { s with rdata := w }

/-- A read at byte address `n` returns `w`, and a draw while BUSY = 1 (20_memory.md R162). -/
def ReadsEngine (s : State) (n : Nat) (w : Word) : Prop :=
  (s.framesLeft = 0 → ReadsExact s n w) ∧
  (0 < s.framesLeft →
    exec (.rd (BitVec.ofNat 20 n)) s = .next { s with rdata := Config.readDraw s.draws, draws := s.draws + 1 })

section
variable {s : State} {n : Nat} {l : Loc} {w : Word}

theorem exec_rd (hl : locate s.params (BitVec.ofNat 20 n) = l) :
    exec (.rd (BitVec.ofNat 20 n)) s =
      .next (if engineWritten l && s.busy then returnDraw s else returnWord (locWord s l) s) :=
  hl ▸ rfl

theorem readsExact_of_locate (hl : locate s.params (BitVec.ofNat 20 n) = l) (he : (engineWritten l && s.busy) = false)
    (hw : locWord s l = w) : ReadsExact s n w := by
  rw [ReadsExact, exec_rd hl, he, hw]
  rfl

theorem readsEngine_of_locate (hl : locate s.params (BitVec.ofNat 20 n) = l) (he : engineWritten l = true)
    (hw : locWord s l = w) : ReadsEngine s n w := by
  refine ⟨fun hidle => readsExact_of_locate hl ?_ hw, fun hbusy => ?_⟩
  · rw [State.busy, hidle, decide_eq_false (Nat.lt_irrefl 0), Bool.and_false]
  · rw [exec_rd hl, he, State.busy, decide_eq_true hbusy]
    rfl
end

/-! ## Words as numbers -/

/-- Concatenated bits, as numbers. -/
theorem toNat_append_eq_add {m n : Nat} (x : BitVec m) (y : BitVec n) :
    (x ++ y).toNat = x.toNat * 2 ^ n + y.toNat := by
  rw [BitVec.toNat_append, ← Nat.shiftLeft_add_eq_or_of_lt y.isLt, Nat.shiftLeft_eq]

theorem cfg0Word_eq {P : Params} (hP : P.legal) : cfg0Word P =
    BitVec.ofNat 32 (P.voiceMax + P.oscMax * 2 ^ 8 + P.numPresets * 2 ^ 12 + P.cmdqDepth * 2 ^ 16) := by
  obtain ⟨hvoice, hosc, hpresets, -, -, hqueue, -⟩ := hP
  apply BitVec.eq_of_toNat_eq
  unfold cfg0Word
  simp only [toNat_append_eq_add, BitVec.toNat_ofNat]
  omega

theorem cfg1Word_eq {P : Params} (hP : P.legal) : cfg1Word P = BitVec.ofNat 32 P.delayCap := by
  obtain ⟨-, -, -, hdelay, -⟩ := hP
  apply BitVec.eq_of_toNat_eq
  unfold cfg1Word
  simp only [toNat_append_eq_add, BitVec.toNat_ofNat]
  omega

theorem cfg2Word_eq {P : Params} (hP : P.legal) : cfg2Word P = BitVec.ofNat 32 (P.visCap + P.nmax * 2 ^ 16) := by
  obtain ⟨-, -, -, -, hvis, -, hnmax, -⟩ := hP
  apply BitVec.eq_of_toNat_eq
  unfold cfg2Word
  simp only [toNat_append_eq_add, BitVec.toNat_ofNat]
  omega

theorem selWord_eq {s : State} (hl : s.layerSel < 8) :
    selWord s = BitVec.ofNat 32 (s.waveSel.code + s.layerSel * 2 ^ 8) := by
  have hwave := s.waveSel.code_lt
  apply BitVec.eq_of_toNat_eq
  unfold selWord
  simp only [toNat_append_eq_add, BitVec.toNat_ofNat]
  omega

theorem velTWord_eq (R : Regs) : velTWord R = BitVec.ofNat 32 (R.tLo.toNat + R.tHi.toNat * 2 ^ 8) := by
  have hlo := R.tLo.isLt
  have hhi := R.tHi.isLt
  apply BitVec.eq_of_toNat_eq
  unfold velTWord
  simp only [BitVec.toNat_setWidth, toNat_append_eq_add, BitVec.toNat_ofNat]
  omega

theorem modeWord_eq (R : Regs) : R.mode.setWidth 32 = BitVec.ofNat 32 R.mode.toNat :=
  BitVec.eq_of_toNat_eq (by rw [BitVec.toNat_setWidth, BitVec.toNat_ofNat])

theorem runWord_eq (b : Bool) : (BitVec.ofBool b).setWidth 32 = if b then 1 else 0 := by cases b <;> rfl

theorem voiceWindow_reserved (v : Voice) {j : Nat} (hj : 3 ≤ j) : voiceWindow v j = 0 := by
  match j, hj with
  | j + 3, _ => rfl

/-! ## The registers and windows -/

section
variable {s : State} (hP : s.params.legal)
include hP

theorem readsExact_presetCount {p : Nat} (hp : p < s.params.numPresets) :
    ReadsExact s (0x800 + 0x100 * p) (s.pend.preset p).count := by
  refine readsExact_of_locate (locate_presetCount _ hP hp) rfl ?_
  obtain ⟨-, -, hpresets, -⟩ := hP
  rw [locWord, toNat_ofNat_of_lt (by omega)]

theorem readsExact_presetField {p o : Nat} (hp : p < s.params.numPresets) (ho : o < s.params.oscMax) (f : PField) :
    ReadsExact s (0x880 + 0x100 * p + 0x10 * o + 4 * f.select) (((s.pend.preset p).slot o).get f) := by
  refine readsExact_of_locate (locate_presetField _ hP hp ho (by cases f <;> decide)) rfl ?_
  obtain ⟨-, hosc, hpresets, -⟩ := hP
  have hselect : PField.ofSelect (BitVec.ofNat 2 f.select) = f := by cases f <;> rfl
  rw [locWord, hselect, toNat_ofNat_of_lt (by omega), toNat_ofNat_of_lt (by omega)]

theorem readsEngine_voice {v j : Nat} (hv : v < s.params.voiceMax) (hj : j < 8) :
    ReadsEngine s (0x1000 + 0x20 * v + 4 * j) (voiceWindow (s.voice v) j) :=
  readsEngine_of_locate (locate_voice _ hP hv hj) rfl rfl

theorem readsEngine_osc {v o j : Nat} (hv : v < s.params.voiceMax) (ho : o < s.params.oscMax) (hj : j < 16) :
    ReadsEngine s (0x4000 + 0x200 * v + 0x40 * o + 4 * j) (oscWindow ((s.voice v).osc o) j) :=
  readsEngine_of_locate (locate_osc _ hP hv ho hj) rfl rfl
end

section
variable {s : State} {n : Nat} {w : Word}

theorem readsExact_control (ha : n % 4 = 0) (hn : n < 0x40)
    (he : engineWritten (controlLocs.getD (n / 4) .unmapped) = false)
    (hw : locWord s (controlLocs.getD (n / 4) .unmapped) = w) : ReadsExact s n w :=
  readsExact_of_locate (locate_control _ ha hn) (by rw [he, Bool.false_and]) hw

theorem readsEngine_control (ha : n % 4 = 0) (hn : n < 0x40)
    (he : engineWritten (controlLocs.getD (n / 4) .unmapped) = true)
    (hw : locWord s (controlLocs.getD (n / 4) .unmapped) = w) : ReadsEngine s n w :=
  readsEngine_of_locate (locate_control _ ha hn) he hw
end

/-- The thirty-two configuration registers, in address order: a read returns the pending copy's word. -/
theorem readsExact_config (s : State) {i : Nat} (hi : i < 32) :
    ReadsExact s (0x100 + 4 * i) (locWord s (configLocs.getD i .unmapped)) := by
  have hloc : locate s.params (BitVec.ofNat 20 (0x100 + 4 * i)) = configLocs.getD i .unmapped := by
    rw [locate_config _ (by omega) (by omega) (by omega), show (0x100 + 4 * i - 0x100) / 4 = i by omega]
  have hexact : ∀ i < 32, engineWritten (configLocs.getD i .unmapped) = false := by decide
  exact readsExact_of_locate hloc (by rw [hexact i hi, Bool.false_and]) rfl

/-- Settles O59: each address is located, and the word of its location is the one the statement names. -/
theorem registerReads : Obligations.RegisterReads := by
  unfold Obligations.RegisterReads
  intro s hP hlayer _ _ _ _
  have hsel : s.layerSel < 8 := by obtain ⟨-, -, hpresets, -⟩ := hP; omega
  refine ⟨?control, ?config, fun p hp => ⟨readsExact_presetCount hP hp, fun o ho => ?preset⟩,
    fun v hv => ?voice,
    fun i hi => readsEngine_of_locate (locate_vis _ hP hi) rfl rfl,
    fun i hi => readsEngine_of_locate (locate_dly _ hP hi) rfl rfl⟩
  case control =>
    exact ⟨readsExact_control rfl (by decide) rfl rfl, readsExact_control rfl (by decide) rfl (cfg0Word_eq hP),
      readsExact_control rfl (by decide) rfl (cfg1Word_eq hP), readsExact_control rfl (by decide) rfl (cfg2Word_eq hP),
      readsExact_control rfl (by decide) rfl (runWord_eq s.run), readsExact_control rfl (by decide) rfl rfl,
      readsExact_control rfl (by decide) rfl rfl, readsExact_control rfl (by decide) rfl rfl,
      readsEngine_control rfl (by decide) rfl rfl, readsEngine_control rfl (by decide) rfl rfl,
      readsExact_control rfl (by decide) rfl rfl, readsEngine_control rfl (by decide) rfl rfl,
      readsEngine_control rfl (by decide) rfl rfl, readsEngine_control rfl (by decide) rfl rfl,
      readsEngine_control rfl (by decide) rfl rfl, readsEngine_control rfl (by decide) rfl (selWord_eq hsel)⟩
  case config =>
    intro aw haw
    rw [← velTWord_eq, ← modeWord_eq] at haw
    obtain ⟨i, hi, rfl⟩ := List.mem_map.mp (show aw ∈ (List.range 32).map fun i =>
      (0x100 + 4 * i, locWord s (configLocs.getD i .unmapped)) from haw)
    exact readsExact_config s (List.mem_range.mp hi)
  case preset =>
    exact ⟨readsExact_presetField hP hp ho .oct, readsExact_presetField hP hp ho .duty,
      readsExact_presetField hP hp ho .vol, readsExact_presetField hP hp ho .detune⟩
  case voice =>
    have hword (j : Nat) (hj : j < 8) := readsEngine_voice hP hv hj
    refine ⟨hword 0 (by decide), hword 1 (by decide), hword 2 (by decide),
      fun j hlo hhi => voiceWindow_reserved (s.voice v) hlo ▸ hword j hhi, fun o ho => ?slot⟩
    case slot =>
      have hword (j : Nat) (hj : j < 16) := readsEngine_osc hP hv ho hj
      exact ⟨hword 0 (by decide), hword 1 (by decide), hword 2 (by decide), hword 3 (by decide), hword 4 (by decide),
        hword 5 (by decide), hword 6 (by decide), hword 7 (by decide), hword 8 (by decide), hword 9 (by decide),
        hword 10 (by decide), hword 11 (by decide), hword 12 (by decide), hword 13 (by decide), hword 14 (by decide),
        hword 15 (by decide)⟩

end Sys2Proof.Machine

/-!
SUPPORT. Transactions that reach no writable state (20_memory.md R153, R154): reads of a location the engine does not
write, ignored writes, misaligned transactions.
-/

namespace Sys2Proof.Machine

/-! ## Unmapped, read-only and write-only -/

/-- A read of a location that the engine does not write, at any address that names it. -/
theorem exec_rd_of_not_engineWritten {a : BusAddr} {s : State} {l : Loc} (hl : locate s.params a = l)
    (he : engineWritten l = false) : exec (.rd a) s = .next { s with rdata := locWord s l } := by
  have haddr : BitVec.ofNat 20 a.toNat = a := by rw [BitVec.ofNat_toNat, BitVec.setWidth_eq]
  have hread : ReadsExact s a.toNat (locWord s l) :=
    readsExact_of_locate (by rw [haddr, hl]) (by rw [he, Bool.false_and]) rfl
  rwa [ReadsExact, haddr] at hread

/-- The locations whose writes are ignored: the read-only registers and windows, and what is unmapped (R153). -/
def ignoresWrites : Loc → Bool
  | .id | .cfg0 | .cfg1 | .cfg2 | .frameCount | .delayRd | .delayWr | .visWr | .sel
  | .voice _ _ | .osc _ _ _ | .vis _ | .dly _ | .unmapped => true
  | .ctrl | .status | .event | .renderReq | .dropCount | .ignCount | .qovfCount | .int _ | .flt _
  | .presetCount _ | .presetField _ _ _ => false

theorem decodeWrite_of_ignoresWrites {P : Params} {a : BusAddr} (w : Word) {l : Loc} (hl : locate P a = l)
    (h : ignoresWrites l = true) : decodeWrite P a w = .wrIgnored a w := by
  rw [decodeWrite, hl]
  cases l with
  | id | cfg0 | cfg1 | cfg2 | frameCount | delayRd | delayWr | visWr | sel | voice | osc | vis | dly | unmapped => rfl
  | ctrl | status | event | renderReq | dropCount | ignCount | qovfCount | int | flt | presetCount | presetField =>
    cases h

theorem exec_wrIgnored (a : BusAddr) (w : Word) (s : State) : exec (.wrIgnored a w) s = .next s := rfl

/-- Settles O13: the locations of the second clause ignore their writes, and those of the other two hold the word 0. -/
theorem unmappedAndReadOnly : Obligations.UnmappedAndReadOnly := by
  unfold Obligations.UnmappedAndReadOnly
  intro a w s ha l
  refine ⟨fun hl => exec_rd_of_not_engineWritten hl rfl, fun hl => ⟨?ignored, exec_wrIgnored a w s⟩, fun hl => ?writeOnly⟩
  case ignored =>
    have hign : ignoresWrites l = true := by
      rcases hl with hl | ⟨v, j, hl⟩ | ⟨v, o, j, hl⟩ | ⟨i, hl⟩ | ⟨i, hl⟩
      · exact List.all_eq_true.mp (by rfl) l hl
      all_goals rw [hl]; rfl
    exact (decodeBus_write s.params a w ha).trans (decodeWrite_of_ignoresWrites w rfl hign)
  case writeOnly =>
    obtain hl | hl := hl
    · exact exec_rd_of_not_engineWritten hl rfl
    · exact exec_rd_of_not_engineWritten hl rfl

/-! ## Misaligned transactions -/

theorem raise_busMisaligned (s : State) : raise .busMisaligned s = { s with busErr := true, lastErr := 0x20 } := by
  have hcfg : (s.cfgErr || ErrKind.busMisaligned.setsCfgErr) = s.cfgErr := Bool.or_false _
  have hbus : (s.busErr || ErrKind.busMisaligned.setsBusErr) = true := Bool.or_true _
  have hrender : (s.renderErr || ErrKind.busMisaligned.setsRenderErr) = s.renderErr := Bool.or_false _
  rw [raise, hcfg, hbus, hrender, ErrKind.code]

/-- The error is raised for a read and for a write; only the read returns a word. -/
theorem exec_busMisaligned (rw : Bool) (a : BusAddr) (w : Word) (s : State) : exec (.busMisaligned rw a w) s =
    .next { s with busErr := true, lastErr := 0x20, rdata := if rw then s.rdata else 0 } := by
  change Host.Outcome.next (raise .busMisaligned (if rw then s else returnWord 0 s)) = _
  rw [raise_busMisaligned]
  cases rw <;> rfl

/-- Settles O15: whatever the address maps to, the transaction is BUS_MISALIGNED. -/
theorem misalignedTransaction : Obligations.MisalignedTransaction := by
  unfold Obligations.MisalignedTransaction
  intro rw a w s ha
  have haligned : aligned a = false := beq_eq_false_iff_ne.mpr ha
  exact ⟨decodeBus_misaligned s.params rw a w haligned, exec_busMisaligned rw a _ s⟩

end Sys2Proof.Machine

/-!
SUPPORT. DECODE of an event word, branch by branch in the order of 30_encoding.md R204: the type, the high bits of the two
data bytes, then the operation.
-/

namespace Sys2Proof

theorem knownType_iff (t : BitVec 4) : knownType t = true ↔ t = 0x8 ∨ t = 0x9 ∨ t = 0xB := by
  simp only [knownType, Bool.or_eq_true, beq_iff_eq, or_assoc]

section
variable (P : Params) {e : EventWord}

theorem decodeEvent_of_not_knownType (ht : ¬ knownType (e.extractLsb' 20 4) = true) :
    decodeEvent P e = .reserved e := by
  have hunknown : (!knownType (e.extractLsb' 20 4)) = true := by rw [Bool.eq_false_of_not_eq_true ht, Bool.not_false]
  rw [decodeEvent, if_pos hunknown]

theorem decodeEvent_of_badData (ht : knownType (e.extractLsb' 20 4) = true)
    (hb : e.getLsbD 15 = true ∨ e.getLsbD 7 = true) : decodeEvent P e = .badData e := by
  simp only [decodeEvent, ht, Bool.not_true]
  rw [if_neg Bool.false_ne_true, if_pos (Bool.or_eq_true_iff.mpr hb)]

/-- Past the two checks of R204, TYPE and DATA1 select the operation. -/
theorem decodeEvent_of_clean (ht : knownType (e.extractLsb' 20 4) = true)
    (hb : ¬ (e.getLsbD 15 = true ∨ e.getLsbD 7 = true)) :
    decodeEvent P e =
      if e.extractLsb' 20 4 = 0x8 then .noteOff (e.extractLsb' 16 4) (e.extractLsb' 8 7) (e.extractLsb' 0 7)
      else if e.extractLsb' 20 4 = 0x9 then .noteOn (e.extractLsb' 16 4) (e.extractLsb' 8 7) (e.extractLsb' 0 7)
      else if e.extractLsb' 8 7 = P.ccWaveNum then .ccWave (e.extractLsb' 16 4) (e.extractLsb' 0 7)
      else if e.extractLsb' 8 7 = P.ccLayerNum then .ccLayer (e.extractLsb' 16 4) (e.extractLsb' 0 7)
      else .ccOther (e.extractLsb' 16 4) (e.extractLsb' 8 7) (e.extractLsb' 0 7) := by
  simp only [decodeEvent, ht, Bool.not_true]
  rw [if_neg Bool.false_ne_true, if_neg (Bool.or_eq_true_iff.not.mpr hb)]

section
variable (hb : ¬ (e.getLsbD 15 = true ∨ e.getLsbD 7 = true))
include hb

theorem decodeEvent_noteOff (ht : e.extractLsb' 20 4 = 0x8) :
    decodeEvent P e = .noteOff (e.extractLsb' 16 4) (e.extractLsb' 8 7) (e.extractLsb' 0 7) := by
  rw [decodeEvent_of_clean P ((knownType_iff _).mpr (.inl ht)) hb, if_pos ht]

theorem decodeEvent_noteOn (ht : e.extractLsb' 20 4 = 0x9) :
    decodeEvent P e = .noteOn (e.extractLsb' 16 4) (e.extractLsb' 8 7) (e.extractLsb' 0 7) := by
  have hOff : e.extractLsb' 20 4 ≠ 0x8 := by rw [ht]; decide
  rw [decodeEvent_of_clean P ((knownType_iff _).mpr (.inr (.inl ht))) hb, if_neg hOff, if_pos ht]

/-- A control change is selected by its controller number alone. -/
theorem decodeEvent_controlChange (ht : e.extractLsb' 20 4 = 0xB) :
    decodeEvent P e =
      if e.extractLsb' 8 7 = P.ccWaveNum then .ccWave (e.extractLsb' 16 4) (e.extractLsb' 0 7)
      else if e.extractLsb' 8 7 = P.ccLayerNum then .ccLayer (e.extractLsb' 16 4) (e.extractLsb' 0 7)
      else .ccOther (e.extractLsb' 16 4) (e.extractLsb' 8 7) (e.extractLsb' 0 7) := by
  have hOff : e.extractLsb' 20 4 ≠ 0x8 := by rw [ht]; decide
  have hOn : e.extractLsb' 20 4 ≠ 0x9 := by rw [ht]; decide
  rw [decodeEvent_of_clean P ((knownType_iff _).mpr (.inr (.inr ht))) hb, if_neg hOff, if_neg hOn]

theorem decodeEvent_ccWave (ht : e.extractLsb' 20 4 = 0xB) (hk : e.extractLsb' 8 7 = P.ccWaveNum) :
    decodeEvent P e = .ccWave (e.extractLsb' 16 4) (e.extractLsb' 0 7) := by
  rw [decodeEvent_controlChange P hb ht, if_pos hk]

theorem decodeEvent_ccLayer (ht : e.extractLsb' 20 4 = 0xB) (hw : e.extractLsb' 8 7 ≠ P.ccWaveNum)
    (hk : e.extractLsb' 8 7 = P.ccLayerNum) :
    decodeEvent P e = .ccLayer (e.extractLsb' 16 4) (e.extractLsb' 0 7) := by
  rw [decodeEvent_controlChange P hb ht, if_neg hw, if_pos hk]

theorem decodeEvent_ccOther (ht : e.extractLsb' 20 4 = 0xB) (hw : e.extractLsb' 8 7 ≠ P.ccWaveNum)
    (hl : e.extractLsb' 8 7 ≠ P.ccLayerNum) :
    decodeEvent P e = .ccOther (e.extractLsb' 16 4) (e.extractLsb' 8 7) (e.extractLsb' 0 7) := by
  rw [decodeEvent_controlChange P hb ht, if_neg hw, if_neg hl]
end
end

/-- An event word decodes to the instruction of its event. -/
theorem decode_event_of_decodeEvent {P : Params} {e : EventWord} {v : Event} (h : decodeEvent P e = v) :
    decode P (.event e) = v.toInstr := congrArg Event.toInstr h

/-- Settles O4: one clause for each branch of DECODE. -/
theorem eventDecoding : Obligations.EventDecoding := by
  unfold Obligations.EventDecoding
  intro P e t ch k d known bad
  have hknown : knownType t = true ↔ known := knownType_iff t
  exact ⟨fun ht => decode_event_of_decodeEvent (decodeEvent_of_not_knownType P (hknown.not.mpr ht)),
    fun ht hb => decode_event_of_decodeEvent (decodeEvent_of_badData P (hknown.mpr ht) hb),
    fun ht hb => decode_event_of_decodeEvent (decodeEvent_noteOff P hb ht),
    fun ht hb => decode_event_of_decodeEvent (decodeEvent_noteOn P hb ht),
    fun ht hb hk => decode_event_of_decodeEvent (decodeEvent_ccWave P hb ht hk),
    fun ht hb hw hk => decode_event_of_decodeEvent (decodeEvent_ccLayer P hb ht hw hk),
    fun ht hb hw hl => decode_event_of_decodeEvent (decodeEvent_ccOther P hb ht hw hl)⟩

end Sys2Proof

/-!
SUPPORT. The host's control transactions and integer configuration writes (40_host_commands.md R253-R260): what a write
to each register decodes to, and the effect of each.
-/

namespace Sys2Proof.Machine

/-! ## What a write decodes to -/

theorem decode_write (P : Params) (w : Word) {n : Nat} (ha : n % 4 = 0) :
    decode P (.bus (busWord true (BitVec.ofNat 20 n) w)) = decodeWrite P (BitVec.ofNat 20 n) w := by
  have haligned : aligned (BitVec.ofNat 20 n) = true := by
    rw [aligned, BitVec.toNat_ofNat, beq_iff_eq]; omega
  exact decodeBus_write P _ w haligned

section
variable {P : Params} {a : BusAddr} (w : Word)

theorem decodeWrite_ctrl (hl : locate P a = .ctrl) : decodeWrite P a w = decodeCtrl w := by rw [decodeWrite, hl]

theorem decodeWrite_status (hl : locate P a = .status) : decodeWrite P a w = .statusW1c w := by rw [decodeWrite, hl]

theorem decodeWrite_event (hl : locate P a = .event) : decodeWrite P a w = .evPush w := by rw [decodeWrite, hl]

/-- Where a diagnostic counter lies in the address map (10_state.md R116). -/
def counterLoc : Counter → Loc
  | .drop => .dropCount
  | .ign => .ignCount
  | .qovf => .qovfCount

theorem decodeWrite_counter (c : Counter) (hl : locate P a = counterLoc c) : decodeWrite P a w = .cntClear c w := by
  cases c <;> rw [decodeWrite, hl] <;> rfl

theorem decodeWrite_ireg (r : IReg) (hl : locate P a = .int r) : decodeWrite P a w = r.write w := by
  rw [decodeWrite, hl]

theorem decodeWrite_presetCount (p : BitVec 3) (hl : locate P a = .presetCount p) :
    decodeWrite P a w = .wrPresetCount p w := by rw [decodeWrite, hl]
end

section
variable (P : Params) (w : Word)

theorem decode_ctrl_write : decode P (.bus (busWord true 0x10 w)) = decodeCtrl w :=
  (decode_write P w (n := 0x10) rfl).trans (decodeWrite_ctrl w (locate_control P rfl (by decide)))

theorem decode_status_write : decode P (.bus (busWord true 0x14 w)) = .statusW1c w :=
  (decode_write P w (n := 0x14) rfl).trans (decodeWrite_status w (locate_control P rfl (by decide)))

theorem decode_event_write : decode P (.bus (busWord true 0x18 w)) = .evPush w :=
  (decode_write P w (n := 0x18) rfl).trans (decodeWrite_event w (locate_control P rfl (by decide)))

theorem locate_counter (c : Counter) : locate P (BitVec.ofNat 20 c.addr) = counterLoc c := by
  rw [locate_control P (by cases c <;> rfl) (by cases c <;> decide)]
  cases c <;> rfl

theorem decode_counter_write (c : Counter) :
    decode P (.bus (busWord true (BitVec.ofNat 20 c.addr) w)) = .cntClear c w :=
  (decode_write P w (by cases c <;> rfl)).trans (decodeWrite_counter w c (locate_counter P c))

theorem locate_ireg (r : IReg) : locate P (BitVec.ofNat 20 r.addr) = .int r := by
  rw [locate_config P (by cases r <;> rfl) (by cases r <;> decide) (by cases r <;> decide)]
  cases r <;> rfl

theorem decode_ireg_write (r : IReg) : decode P (.bus (busWord true (BitVec.ofNat 20 r.addr) w)) = r.write w :=
  (decode_write P w (by cases r <;> rfl)).trans (decodeWrite_ireg w r (locate_ireg P r))

/-- The COUNT of a preset that exists; the field of 3 bits bounds the index, whatever NUM_PRESETS is. -/
theorem locate_presetCount_field {p : BitVec 3} (hp : p.toNat < P.numPresets) :
    locate P (BitVec.ofNat 20 (0x800 + 0x100 * p.toNat)) = .presetCount p := by
  have hlt := p.isLt
  have hpreset : (BitVec.ofNat 20 (0x800 + 0x100 * p.toNat)).extractLsb' 8 3 = p :=
    (extractLsb'_busAddr (m := p.toNat) (by omega) rfl (by omega)).trans (BitVec.eq_of_toNat_eq (toNat_ofNat_of_lt hlt))
  have hlow : (BitVec.ofNat 20 (0x800 + 0x100 * p.toNat)).extractLsb' 0 8 = 0 :=
    extractLsb'_busAddr (m := 0) (by omega) rfl (by omega)
  have hcount : (BitVec.ofNat 20 (0x800 + 0x100 * p.toNat)).getLsbD 7 = false := by
    rw [getLsbD_busAddr (by omega), decide_eq_false (by omega)]
  rw [locate_preset_window P (by omega) (by omega) (by omega)]
  simp only [locatePreset, hpreset, hlow, hcount, hp, Bool.false_eq_true, if_true, if_false]

theorem decode_presetCount_write {p : BitVec 3} (hp : p.toNat < P.numPresets) :
    decode P (.bus (busWord true (BitVec.ofNat 20 (0x800 + 0x100 * p.toNat)) w)) = .wrPresetCount p w :=
  (decode_write P w (by omega)).trans (decodeWrite_presetCount w p (locate_presetCount_field P hp))
end

/-! ## START -/

theorem legalRate_iff (s : State) : legalRate s = true ↔
    s.params.srMin ≤ s.pend.sampleRate.toNat ∧ s.pend.sampleRate.toNat ≤ s.params.srMax := by
  simp only [legalRate, Bool.and_eq_true, decide_eq_true_eq]

theorem legalChannels_iff (s : State) : legalChannels s = true ↔ s.pend.channels = 1 ∨ s.pend.channels = 2 := by
  simp only [legalChannels, Bool.or_eq_true, beq_iff_eq]

theorem ErrKind.flags_of_setsCfgErr {e : ErrKind} :
    e.setsCfgErr = true → e.setsBusErr = false ∧ e.setsRenderErr = false := by
  cases e <;> decide

/-- A configuration error sets CFG_ERR and its code (60_exceptions.md R601, R602). -/
theorem raise_cfg {e : ErrKind} (he : e.setsCfgErr = true) (s : State) :
    raise e s = { s with cfgErr := true, lastErr := e.code } := by
  obtain ⟨hbus, hrender⟩ := ErrKind.flags_of_setsCfgErr he
  rw [raise, he, hbus, hrender, Bool.or_true, Bool.or_false, Bool.or_false]

section
variable (w : Word) {s : State}

theorem exec_ctrlStart_running (hrun : s.run = true) :
    exec (.ctrlStart w) s = .next { s with stopPending := false } :=
  congrArg Host.Outcome.next (if_pos hrun)

/-- A START while RUN = 0 checks the rate, then the channel count (40_host_commands.md R256). -/
theorem exec_ctrlStart_stopped (hrun : s.run = false) : exec (.ctrlStart w) s =
    .next (if !legalRate s then raise .cfgBadRate s else if !legalChannels s then raise .cfgBadChannels s
      else { s with run := true }) :=
  congrArg Host.Outcome.next (if_neg (by rw [hrun]; exact Bool.false_ne_true))
end

/-- Settles O16: RUN first, then the two checks in their order. -/
theorem startResult : Obligations.StartResult := by
  unfold Obligations.StartResult
  intro w s rateOk channelsOk
  have hrate : legalRate s = true ↔ rateOk := legalRate_iff s
  have hchannels : legalChannels s = true ↔ channelsOk := legalChannels_iff s
  refine ⟨fun h1 h0 => ?decode, exec_ctrlStart_running w, fun hrun hbad => ?badRate, fun hrun hr hbad => ?badChannels,
    fun hrun hr hc => ?start⟩
  case decode => simp only [decode_ctrl_write, decodeCtrl, h1, h0, Bool.false_eq_true, if_true, if_false]
  case badRate =>
    rw [exec_ctrlStart_stopped w hrun, Bool.eq_false_of_not_eq_true (hrate.not.mpr hbad)]
    exact congrArg _ (raise_cfg rfl s)
  case badChannels =>
    rw [exec_ctrlStart_stopped w hrun, hrate.mpr hr, Bool.eq_false_of_not_eq_true (hchannels.not.mpr hbad)]
    exact congrArg _ (raise_cfg rfl s)
  case start =>
    rw [exec_ctrlStart_stopped w hrun, hrate.mpr hr, hchannels.mpr hc]
    rfl

/-! ## STATUS_W1C -/

theorem and_not_eq_if (flag bit : Bool) : (flag && !bit) = if bit then false else flag := by
  cases bit
  · exact Bool.and_true flag
  · exact Bool.and_false flag

/-- Settles O18: each sticky flag is masked by its own bit of the word. -/
theorem clearErrorsResult : Obligations.ClearErrorsResult := by
  unfold Obligations.ClearErrorsResult
  intro w s
  refine ⟨decode_status_write s.params w, ?_⟩
  rw [← and_not_eq_if, ← and_not_eq_if, ← and_not_eq_if]
  rfl

/-! ## CNT_CLEAR -/

theorem exec_cntClear (c : Counter) (w : Word) (s : State) : exec (.cntClear c w) s = .next (clearCounter c s) := rfl

/-- A clear that does not race leaves 0 and takes no draw. -/
theorem clearCounter_of_not_races {c : Counter} {s : State} (h : clearRaces c s = false) : clearCounter c s =
    match c with
    | .drop => { s with dropCount := 0 }
    | .ign => { s with ignCount := 0 }
    | .qovf => { s with qovfCount := 0 } := by
  have hcount : clearedCount c s = 0 := by rw [clearedCount, h]; rfl
  unfold clearCounter
  rw [hcount, h]
  cases c <;> rfl

/-- A clear that may race leaves the free choice and takes its draw (notes 15). -/
theorem clearCounter_of_races {c : Counter} {s : State} (h : clearRaces c s = true) : clearCounter c s =
    let raced : Word := if Config.clearDraw s.draws then 1 else 0
    match c with
    | .drop => { s with dropCount := raced, draws := s.draws + 1 }
    | .ign => { s with ignCount := raced, draws := s.draws + 1 }
    | .qovf => { s with qovfCount := raced, draws := s.draws + 1 } := by
  have hcount : clearedCount c s = if Config.clearDraw s.draws then 1 else 0 := by rw [clearedCount, h, Bool.true_and]
  unfold clearCounter
  rw [hcount, h]
  cases c <;> rfl

theorem clearRaces_of_ne_qovf {c : Counter} (hc : c ≠ .qovf) (s : State) : clearRaces c s = s.busy := by
  rw [clearRaces, bne_iff_ne.mpr hc, Bool.and_true]

/-- Settles O19: BUSY decides whether a clear of DROP_COUNT or IGN_COUNT may race; one of QOVF_COUNT never does. -/
theorem clearCounterResult : Obligations.ClearCounterResult := by
  unfold Obligations.ClearCounterResult
  intro w s raced
  have hdrop : clearRaces .drop s = s.busy := clearRaces_of_ne_qovf (by decide) s
  have hign : clearRaces .ign s = s.busy := clearRaces_of_ne_qovf (by decide) s
  exact ⟨⟨decode_counter_write s.params w .drop,
      fun hb => congrArg _ (clearCounter_of_not_races (hdrop.trans hb)),
      fun hb => congrArg _ (clearCounter_of_races (hdrop.trans hb))⟩,
    ⟨decode_counter_write s.params w .ign,
      fun hb => congrArg _ (clearCounter_of_not_races (hign.trans hb)),
      fun hb => congrArg _ (clearCounter_of_races (hign.trans hb))⟩,
    decode_counter_write s.params w .qovf, congrArg _ (clearCounter_of_not_races (clearRaces_qovf s))⟩

/-! ## EV_PUSH -/

theorem pushEvent_of_room (e : EventWord) {s : State} (h : s.queue.length < s.params.cmdqDepth) :
    pushEvent e s = withQueue (s.queue ++ [e]) s := if_pos h

theorem pushEvent_of_full (e : EventWord) {s : State} (h : ¬ s.queue.length < s.params.cmdqDepth) :
    pushEvent e s = countQovf s := if_neg h

/-- Settles O20: the two cases of the push, on the room in the queue. -/
theorem pushResult : Obligations.PushResult := by
  unfold Obligations.PushResult
  intro w s
  exact ⟨decode_event_write s.params w, fun h => congrArg Host.Outcome.next (pushEvent_of_room (eventOf w) h),
    fun h => congrArg Host.Outcome.next (pushEvent_of_full (eventOf w) h)⟩

/-! ## The integer configuration writes -/

theorem velStored_iff (w : Word) : velStored w = true ↔
    0 < (velLo w).toNat ∧ (velLo w).toNat < (velHi w).toNat ∧ (velHi w).toNat < 127 := by
  simp only [velStored, Bool.and_eq_true, decide_eq_true_eq, and_assoc]

theorem exec_wrQuantBits (w : Word) (s : State) : exec (.wrQuantBits w) s =
    .next { s with pend := { s.pend with quantBits := BitVec.ofNat 32 (min w.toNat 24) } } := by
  have hclamp : clampWord w 0 24 = BitVec.ofNat 32 (min w.toNat 24) := by rw [clampWord, Nat.max_zero]
  rw [← hclamp]
  rfl

theorem exec_wrVelT (w : Word) (s : State) : exec (.wrVelT w) s =
    .next (if 0 < (velLo w).toNat ∧ (velLo w).toNat < (velHi w).toNat ∧ (velHi w).toNat < 127 then
      { s with pend := { s.pend with tLo := velLo w, tHi := velHi w } } else s) :=
  congrArg Host.Outcome.next (if_congr (velStored_iff w) rfl rfl)

/-- A write of COUNT replaces that field of one preset and leaves the other presets. -/
theorem exec_wrPresetCount {p : BitVec 3} (w : Word) {s : State} (hp : p.toNat < s.pend.presets.length) :
    ∃ L, exec (.wrPresetCount p w) s = .next { s with pend := { s.pend with presets := L } } ∧
      L.length = s.pend.presets.length ∧
      L[p.toNat]? = some { s.pend.preset p.toNat with count := clampWord w 1 s.params.oscMax } ∧
      ∀ q, q ≠ p.toNat → L[q]? = s.pend.presets[q]? := by
  refine ⟨s.pend.presets.modify p.toNat fun Q => { Q with count := clampWord w 1 s.params.oscMax }, rfl,
    List.length_modify .., ?written, fun q hq => ?other⟩
  case written =>
    rw [List.getElem?_modify_eq, List.getElem?_eq_getElem hp, Regs.preset, List.getD_eq_getElem _ _ hp]
    rfl
  case other => exact List.getElem?_modify_ne _ _ hq.symm

/-- Settles O25: each register's address, and what its write stores. -/
theorem writeInteger : Obligations.WriteInteger := by
  unfold Obligations.WriteInteger
  intro w s
  have hdecode := decode_ireg_write s.params w
  exact ⟨⟨hdecode .sampleRate, hdecode .channels, hdecode .mode, hdecode .delayLen, hdecode .quantBits, hdecode .velT⟩,
    fun p hp => decode_presetCount_write s.params w hp, rfl, rfl, rfl, rfl, exec_wrQuantBits w s, exec_wrVelT w s,
    fun p hp => exec_wrPresetCount w hp⟩

end Sys2Proof.Machine

/-!
SUPPORT. The legal states (10_state.md) are kept: by each operation on the configuration, the voices and the state, then
by every instruction, a frame and a step.
-/

namespace Sys2Proof.Machine

/-! ## Lists changed at one place -/

theorem forall_mem_modify {α : Type} {Q : α → Prop} {l : List α} {g : α → α} (h : ∀ a ∈ l, Q a)
    (hg : ∀ a, Q a → Q (g a)) (i : Nat) : ∀ a ∈ l.modify i g, Q a := by
  intro a ha
  obtain ⟨j, hj⟩ := List.mem_iff_getElem?.mp ha
  rw [List.getElem?_modify] at hj
  obtain ⟨b, hb, rfl⟩ := Option.map_eq_some_iff.mp hj
  have hQ : Q b := h b (List.mem_of_getElem? hb)
  split
  · exact hg b hQ
  · exact hQ

theorem forall_mem_set {α : Type} {Q : α → Prop} {l : List α} {x : α} (h : ∀ a ∈ l, Q a) (hx : Q x) (i : Nat) :
    ∀ a ∈ l.set i x, Q a := fun a ha => (List.mem_or_eq_of_mem_set ha).elim (h a) (· ▸ hx)

/-! ## Legal configurations -/

/-- The settings of a slot are in the ranges of 10_state.md R107. -/
def SpecLegal (W : WaveSpec) : Prop := ∀ f, InRange (pfieldLo f) (pfieldHi f) (W.get f)

theorem specLegal_resetSpec : SpecLegal resetSpec := fun f => by cases f <;> decide

theorem specLegal_set {W : WaveSpec} (h : SpecLegal W) (f : PField) (w : Word) :
    SpecLegal (W.set f (writtenF32 (pfieldLo f) (pfieldHi f) (W.get f) w)) := by
  intro g
  by_cases hg : g = f
  · rw [hg, WaveSpec.get_set_same]
    exact writtenF32_inRange (pfieldRange_proper f) w (h f)
  · rw [WaveSpec.get_set_other W _ hg]
    exact h g

/-- A clamp to 1 .. n leaves a word in that range (10_state.md R103). -/
theorem clampWord_one_mem (w : Word) {n : Nat} (h1 : 1 ≤ n) (hn : n < 2 ^ 32) :
    1 ≤ (clampWord w 1 n).toNat ∧ (clampWord w 1 n).toNat ≤ n := by
  rw [clampWord, toNat_ofNat_of_lt (by omega)]
  omega

theorem clampWord_zero_le (w : Word) {n : Nat} (hn : n < 2 ^ 32) : (clampWord w 0 n).toNat ≤ n := by
  rw [clampWord, toNat_ofNat_of_lt (by omega)]
  omega

section
variable {P : Params}

theorem presetLegal_resetPreset (hP : P.legal) : PresetLegal P (resetPreset P) where
  count := ⟨le_rfl, by obtain ⟨-, hosc, -⟩ := hP; exact (show 1 ≤ 2 by decide).trans hosc.1⟩
  slots := List.length_replicate
  fields W hW := List.eq_of_mem_replicate hW ▸ specLegal_resetSpec

theorem presetLegal_count (hP : P.legal) {Q : Preset} (h : PresetLegal P Q) (w : Word) :
    PresetLegal P { Q with count := clampWord w 1 P.oscMax } :=
  { h with count := by obtain ⟨-, hosc, -⟩ := hP; exact clampWord_one_mem w (by omega) (by omega) }

theorem presetLegal_writtenPreset {Q : Preset} (h : PresetLegal P Q) (o : Nat) (f : PField) (w : Word) :
    PresetLegal P (writtenPreset o f w Q) where
  count := h.count
  slots := (writtenPreset_length o f w Q).trans h.slots
  fields := forall_mem_modify h.fields (fun _ hW => specLegal_set hW f w) o

theorem resetRegs_getF (r : FReg) : (resetRegs P).getF r = fregReset r := by cases r <;> rfl

theorem fregReset_inRange (r : FReg) : InRange (fregLo r) (fregHi r) (fregReset r) := by cases r <;> decide

theorem regsLegal_resetRegs (hP : P.legal) : RegsLegal P (resetRegs P) where
  floats r := by rw [resetRegs_getF]; exact fregReset_inRange r
  delayLen := by
    obtain ⟨-, -, -, hdelay, -⟩ := hP
    rw [resetRegs, toNat_ofNat_of_lt (by omega)]
    exact ⟨hdelay.1, le_rfl⟩
  quantBits := Nat.zero_le _
  thresholds := (by decide : 0 < 32 ∧ 32 < 96 ∧ 96 < 127)
  presets := List.length_replicate
  preset Q hQ := List.eq_of_mem_replicate hQ ▸ presetLegal_resetPreset hP

theorem regsLegal_setF {R : Regs} (h : RegsLegal P R) (r : FReg) {x : F32} (hx : InRange (fregLo r) (fregHi r) x) :
    RegsLegal P (R.setF r x) where
  floats r' := by
    by_cases hr : r' = r
    · rwa [hr, Regs.getF_setF_same]
    · rw [Regs.getF_setF_other R x hr]
      exact h.floats r'
  delayLen := by rw [Regs.delayLen_setF]; exact h.delayLen
  quantBits := by rw [Regs.quantBits_setF]; exact h.quantBits
  thresholds := by
    obtain ⟨hlo, hhi⟩ := Regs.thresholds_setF R r x
    rw [hlo, hhi]
    exact h.thresholds
  presets := by rw [Regs.presets_setF]; exact h.presets
  preset := by rw [Regs.presets_setF]; exact h.preset

theorem regsLegal_modify {R : Regs} (h : RegsLegal P R) (p : Nat) {g : Preset → Preset}
    (hg : ∀ Q, PresetLegal P Q → PresetLegal P (g Q)) : RegsLegal P { R with presets := R.presets.modify p g } :=
  { h with
    presets := (List.length_modify ..).trans h.presets
    preset := forall_mem_modify h.preset hg p }

/-- A preset that exists is one of the list. -/
theorem presetLegal_preset {R : Regs} (h : RegsLegal P R) {p : Nat} (hp : p < P.numPresets) :
    PresetLegal P (R.preset p) := by
  have hlt : p < R.presets.length := by rw [h.presets]; exact hp
  rw [Regs.preset, List.getD_eq_getElem _ _ hlt]
  exact h.preset _ (List.getElem_mem hlt)

theorem specLegal_slot {Q : Preset} (h : PresetLegal P Q) {o : Nat} (ho : o < P.oscMax) : SpecLegal (Q.slot o) := by
  have hlt : o < Q.slots.length := by rw [h.slots]; exact ho
  rw [Preset.slot, List.getD_eq_getElem _ _ hlt]
  exact h.fields _ (List.getElem_mem hlt)

/-! ## Legal voices -/

/-- The four settings of a slot (10_state.md R60), those of a preset's slot. -/
def Osc.settings (o : Osc) : WaveSpec := ⟨o.oct, o.duty, o.vol, o.detune⟩

theorem specLegal_settings_iff (o : Osc) : SpecLegal o.settings ↔
    InRange (pfieldLo .oct) (pfieldHi .oct) o.oct ∧ InRange (pfieldLo .duty) (pfieldHi .duty) o.duty ∧
    InRange (pfieldLo .vol) (pfieldHi .vol) o.vol ∧ InRange (pfieldLo .detune) (pfieldHi .detune) o.detune := by
  refine ⟨fun h => ⟨h .oct, h .duty, h .vol, h .detune⟩, fun ⟨hoct, hduty, hvol, hdetune⟩ f => ?_⟩
  cases f with
  | oct => exact hoct
  | duty => exact hduty
  | vol => exact hvol
  | detune => exact hdetune

@[simp] theorem initOsc_settings (wave : WaveKind) (W : WaveSpec) (p e0 : F32) :
    (initOsc wave W p e0).settings = W := rfl

theorem fle_trans {a b c : F32} (hab : fle a b = true) (hbc : fle b c = true) : fle a c = true := by
  obtain ⟨ha, -, hab⟩ := fle_iff.mp hab
  obtain ⟨-, hc, hbc⟩ := fle_iff.mp hbc
  exact fle_iff.mpr ⟨ha, hc, hab.trans hbc⟩

/-- Clamping gives a number between bounds of both ends, even when the ends are reversed (41_voice_allocator.md R306)
and whatever the clamped word is. -/
theorem fclamp_between {x lo hi a c : F32} (hlo : fle a lo = true ∧ fle lo c = true)
    (hhi : fle a hi = true ∧ fle hi c = true) : fle a (fclamp x lo hi) = true ∧ fle (fclamp x lo hi) c = true := by
  unfold fclamp fmax
  by_cases hx : fle lo x = true
  · rw [if_pos hx, fmin]
    split
    case isTrue hxhi => exact ⟨fle_trans hlo.1 hx, fle_trans hxhi hhi.2⟩
    case isFalse => exact hhi
  · rw [if_neg hx, fmin]
    split
    case isTrue => exact hlo
    case isFalse => exact hhi

theorem fle_of_inRange {lo hi x : F32} (hr : ProperRange lo hi) (h : InRange lo hi x) :
    fle lo x = true ∧ fle x hi = true := by
  obtain ⟨-, htop⟩ := hr
  obtain ⟨hlo, hhi⟩ := h
  obtain ⟨hlon, hlok⟩ := fkey_of_toNat_lt (x := lo) (by omega)
  obtain ⟨hxn, hxk⟩ := fkey_of_toNat_lt (x := x) (by omega)
  obtain ⟨hhin, hhik⟩ := fkey_of_toNat_lt htop
  exact ⟨fle_iff.mpr ⟨hlon, hxn, by omega⟩, fle_iff.mpr ⟨hxn, hhin, by omega⟩⟩

theorem fle_getF {R : Regs} (h : RegsLegal P R) (r : FReg) :
    fle f0 (R.getF r) = true ∧ fle (R.getF r) (fregHi r) = true :=
  fle_of_inRange (fregRange_proper r) (h.floats r)

theorem velCurve_range {R : Regs} (h : RegsLegal P R) (vel : BitVec 7) :
    fle f0 (velCurve R vel) = true ∧ fle (velCurve R vel) 0x41800000 = true :=
  fclamp_between (fle_getF h .velGmin) (fle_getF h .velGmax)

theorem voiceLegal_resetVoice (hP : P.legal) : VoiceLegal P (resetVoice P) where
  oscs := List.length_replicate
  amplitude := (by decide : fle f0 f0 = true ∧ fle f0 0x41800000 = true)
  count := ⟨le_rfl, by obtain ⟨-, hosc, -⟩ := hP; exact (show 1 ≤ 2 by decide).trans hosc.1⟩
  preset := by obtain ⟨-, -, hpresets, -⟩ := hP; exact hpresets.1
  baseFreq := rfl
  inactive _ := .inr (by
    obtain ⟨-, hosc, -⟩ := hP
    rw [Voice.envState, Voice.osc, resetVoice, List.getD_replicate _ (by omega)]
    rfl)
  specs o ho := List.eq_of_mem_replicate ho ▸ (specLegal_settings_iff resetOsc).mp specLegal_resetSpec

theorem voiceLegal_initVoice {R : Regs} (h : RegsLegal P R) {layer : Nat} (hl : layer < P.numPresets) (wave : WaveKind)
    (draws : Nat) (k vel : BitVec 7) (old : Voice) : VoiceLegal P (initVoice P R wave layer draws k vel old) where
  oscs := initVoice_oscs_length ..
  amplitude := velCurve_range h vel
  count := (presetLegal_preset h hl).count
  preset := hl
  baseFreq := rfl
  inactive hactive := Bool.noConfusion hactive
  specs o ho := by
    obtain ⟨i, hi, rfl⟩ := List.mem_map.mp ho
    rw [← specLegal_settings_iff, initOsc_settings]
    exact specLegal_slot (presetLegal_preset h hl) (List.mem_range.mp hi)

/-- Slot 0 of a legal voice is one of its list. -/
theorem voice_osc_zero (hP : P.legal) {v : Voice} (hlen : v.oscs.length = P.oscMax) :
    ∃ o os, v.oscs = o :: os ∧ v.osc 0 = o := by
  obtain ⟨-, hosc, -⟩ := hP
  obtain ⟨o, os, hos⟩ := List.exists_cons_of_length_pos (l := v.oscs) (by omega)
  exact ⟨o, os, hos, by rw [Voice.osc, hos]; rfl⟩

theorem voiceLegal_releaseVoice (hP : P.legal) (k : BitVec 7) {v : Voice} (h : VoiceLegal P v) :
    VoiceLegal P (releaseVoice k v) := by
  unfold releaseVoice
  split
  case isFalse => exact h
  case isTrue =>
    obtain ⟨o, os, hos, -⟩ := voice_osc_zero hP h.oscs
    exact { h with
      oscs := (List.length_map _).trans h.oscs
      inactive := fun _ => .inl (by unfold Voice.envState Voice.osc; rw [hos]; rfl)
      specs := List.forall_mem_map.mpr h.specs }
end

/-! ## The voices of a frame -/

theorem generate_settings (R : Regs) (amp dt : F32) (o : Osc) : (generate R amp dt o).2.settings = o.settings := by
  unfold generate
  split <;> rfl

theorem shape_settings (R : Regs) (o : Osc) (x : F32) : (shape R o x).2.settings = o.settings := by
  unfold shape
  split <;> rfl

theorem oscStep_settings (R : Regs) (base : F32) (o : Osc) : (oscStep R base o).2.settings = o.settings :=
  (shape_settings R _ _).trans (generate_settings R _ _ o)

theorem oscStep_envState (R : Regs) (base : F32) (o : Osc) :
    (oscStep R base o).2.envState = (envStep R o.envState o.envValue).1 := rfl

theorem envStep_release (R : Regs) (x : F32) :
    (envStep R .release x).1 = .release ∨ (envStep R .release x).1 = .off := by
  simp only [envStep]
  split
  case isTrue => exact .inr rfl
  case isFalse => exact .inl rfl

theorem layerSum_succ (R : Regs) (base fcount : F32) (n : Nat) (o : Osc) (os : List Osc) (acc : F32) :
    (layerSum R base fcount (n + 1) (o :: os) acc).2 =
      (oscStep R base o).2 :: (layerSum R base fcount n os (fadd acc (fdiv (oscStep R base o).1 fcount))).2 := rfl

theorem layerSum_settings (R : Regs) (base fcount : F32) (n : Nat) (os : List Osc) (acc : F32) :
    (layerSum R base fcount n os acc).2.map Osc.settings = os.map Osc.settings := by
  induction n generalizing os acc with
  | zero => rfl
  | succ n ih =>
    cases os with
    | nil => rfl
    | cons o os => rw [layerSum_succ, List.map_cons, List.map_cons, oscStep_settings, ih]

theorem voiceStep_voice (P : Params) (R : Regs) (v : Voice) : (voiceStep P R v).2 =
    { v with oscs := (layerSum R v.baseFreq (fofNat v.count) v.count v.oscs f0).2 } := rfl

/-- A frame advances each voice that sounds and leaves the others, whatever the channel sums are
(44_filter_mix.md R471). -/
theorem mixVoices_voices (P : Params) (R : Regs) (vs : List Voice) (m : F32 × F32) :
    (mixVoices P R vs m).2 = vs.map fun v => if v.sounding then (voiceStep P R v).2 else v := by
  induction vs generalizing m with
  | nil => rfl
  | cons v vs ih =>
    rw [mixVoices, List.map_cons]
    split
    case isTrue => exact congrArg _ (ih _)
    case isFalse => exact congrArg _ (ih _)

theorem mix_state (s : State) : (mix s).2.2 = withVoices (s.voices.map fun v =>
    if v.sounding then (voiceStep s.params s.active v).2 else v) s :=
  congrArg (withVoices · s) (mixVoices_voices s.params s.active s.voices _)

/-- An inactive voice that sounds is in Release (44_filter_mix.md R470). -/
theorem envState_of_sounding_inactive {v : Voice} (hs : v.sounding = true) (ha : v.active = false) :
    v.envState = .release := by
  simpa [Voice.sounding, ha] using hs

theorem voiceLegal_voiceStep {P : Params} (hP : P.legal) (R : Regs) {v : Voice} (h : VoiceLegal P v)
    (hs : v.sounding = true) : VoiceLegal P (voiceStep P R v).2 := by
  rw [voiceStep_voice]
  exact { h with
    oscs := (layerSum_length ..).trans h.oscs
    inactive := fun ha => by
      obtain ⟨o, os, hos, ho⟩ := voice_osc_zero hP h.oscs
      obtain ⟨n, hn⟩ := Nat.exists_eq_add_of_le' h.count.1
      have hrelease : o.envState = .release := by rw [← ho]; exact envState_of_sounding_inactive hs ha
      unfold Voice.envState Voice.osc
      rw [hos, hn, layerSum_succ]
      change (oscStep R v.baseFreq o).2.envState = _ ∨ (oscStep R v.baseFreq o).2.envState = _
      rw [oscStep_envState, hrelease]
      exact envStep_release R o.envValue
    specs := fun o ho => by
      have hmem : o.settings ∈ v.oscs.map Osc.settings := by
        rw [← layerSum_settings]
        exact List.mem_map_of_mem ho
      obtain ⟨o', ho', heq⟩ := List.mem_map.mp hmem
      rw [← specLegal_settings_iff, ← heq, specLegal_settings_iff]
      exact h.specs o' ho' }

/-! ## What an event, a boundary and a channel-sample leave unchanged -/

@[simp] theorem applyEvent_run (e : Event) (s : State) : (applyEvent e s).run = s.run := by
  cases e <;> simp [applyEvent]

/-- The events of a boundary leave the parameters, RUN and the configuration just latched. -/
theorem boundary_frame (s : State) :
    (boundary s).params = s.params ∧ (boundary s).run = s.run ∧ (boundary s).active = s.pend :=
  drain_induction (Q := fun t => t.params = s.params ∧ t.run = s.run ∧ t.active = s.pend) (fun _ _ ht => ht)
    (fun t e ht => by rwa [applyEvent_params, applyEvent_run, applyEvent_active]) _ _ ⟨rfl, rfl, rfl⟩

@[simp] theorem output_framesLeft (x : F32) (s : State) : (output x s).2.framesLeft = s.framesLeft := by
  cases hdelay : s.active.delayActive with
  | true => rw [output_active hdelay, delayStep_state]
  | false => rw [output_bypass hdelay]

@[simp] theorem channelSample_framesLeft (ch : Nat) (x : F32) (s : State) :
    (channelSample ch x s).framesLeft = s.framesLeft := by
  cases ch with
  | zero => rw [channelSample_zero, visStep_framesLeft, emit_framesLeft, output_framesLeft]
  | succ ch => rw [channelSample_succ, emit_framesLeft, output_framesLeft]

@[simp] theorem channelSamples_framesLeft (n ch : Nat) (x0 x1 : F32) (s : State) :
    (channelSamples n ch x0 x1 s).framesLeft = s.framesLeft := by
  induction n generalizing ch s with
  | zero => rfl
  | succ n ih => rw [channelSamples, ih, channelSample_framesLeft]

/-! ## Legal states: the reset state, and the operations on a state -/

theorem legal_resetOf {P : Params} (hP : P.legal) : Legal (State.resetOf P) where
  params := hP
  voiceCount := List.length_replicate
  voices v hv := List.eq_of_mem_replicate hv ▸ voiceLegal_resetVoice hP
  layerSel := by obtain ⟨-, -, hpresets, -⟩ := hP; exact hpresets.1
  queue := Nat.zero_le _
  mem := resetOf_mem_wf P
  cursors := by obtain ⟨-, -, -, hdelay, hvis, -⟩ := hP; exact ⟨hdelay.1, hdelay.1, hvis.1⟩
  pend := regsLegal_resetRegs hP
  active := regsLegal_resetRegs hP
  run hrun := Bool.noConfusion hrun
  busy hbusy := Bool.noConfusion hbusy
  stopPending hstop := Bool.noConfusion hstop
  progress := Nat.zero_le _
  lastErr := .head _

theorem errCode_mem (e : ErrKind) : e.code ∈ lastErrCodes := by cases e <;> decide

section
variable {s : State} (h : Legal s)
include h

theorem legal_withHost (hs : List HostInput) : Legal (withHost hs s) := { h with }

theorem legal_returnWord (w : Word) : Legal (returnWord w s) := { h with }

theorem legal_returnDraw : Legal (returnDraw s) := { h with }

theorem legal_readLoc (l : Loc) : Legal (readLoc l s) := by
  unfold readLoc
  split
  · exact legal_returnDraw h
  · exact legal_returnWord h _

theorem legal_raise (e : ErrKind) : Legal (raise e s) := { h with lastErr := errCode_mem e }

theorem legal_resetBlock : Legal (resetBlock s) := { legal_resetOf h.params with }

theorem legal_countDrop : Legal (countDrop s) := { h with }

theorem legal_countIgn : Legal (countIgn s) := { h with }

theorem legal_countQovf : Legal (countQovf s) := { h with }

theorem legal_clearCounter (c : Counter) : Legal (clearCounter c s) := by
  cases c with
  | drop | ign | qovf => exact { h with }

/-! ### The configuration -/

theorem legal_withPend {R : Regs} (hR : RegsLegal s.params R) (hrun : s.run = true → StartLegal s.params R) :
    Legal (withPend R s) := { h with pend := hR, run := hrun }

/-- A legal copy that keeps SAMPLE_RATE and CHANNELS may become the pending one at any time (10_state.md R108). -/
theorem legal_withPend_same_start {R : Regs} (hR : RegsLegal s.params R) (hrate : R.sampleRate = s.pend.sampleRate)
    (hchannels : R.channels = s.pend.channels) : Legal (withPend R s) :=
  legal_withPend h hR fun hrun => ⟨hrate ▸ (h.run hrun).rate, hchannels ▸ (h.run hrun).channels⟩

theorem legal_writeFReg (r : FReg) (w : Word) : Legal (writeFReg r w s) :=
  legal_withPend_same_start h
    (regsLegal_setF h.pend r (writtenF32_inRange (fregRange_proper r) w (h.pend.floats r)))
    (Regs.sampleRate_setF ..) (Regs.channels_setF ..)

theorem legal_modifyPreset (p : Nat) {g : Preset → Preset}
    (hg : ∀ Q, PresetLegal s.params Q → PresetLegal s.params (g Q)) : Legal (modifyPreset p g s) :=
  legal_withPend_same_start h (regsLegal_modify h.pend p hg) rfl rfl

theorem legal_writePField (p o : BitVec 3) (f : PField) (w : Word) : Legal (writePField p o f w s) :=
  legal_modifyPreset h p.toNat fun _ hQ => presetLegal_writtenPreset hQ o.toNat f w

/-- SAMPLE_RATE and CHANNELS are stored as written, but only while RUN = 0 (10_state.md R108). -/
theorem legal_withPend_stopped {R : Regs} (hR : RegsLegal s.params R) :
    Legal (if s.run then s else withPend R s) := by
  split
  case isTrue => exact h
  case isFalse hstopped => exact legal_withPend h hR fun hrun => absurd hrun hstopped

theorem legal_writeDelayLen (w : Word) :
    Legal { withPend { s.pend with delayLen := clampWord w 1 s.params.delayCap } s with dlenDirty := true } := by
  obtain ⟨-, -, -, hdelay, -⟩ := h.params
  have hR : RegsLegal s.params { s.pend with delayLen := clampWord w 1 s.params.delayCap } :=
    { h.pend with delayLen := clampWord_one_mem w hdelay.1 (by omega) }
  exact { legal_withPend_same_start h hR rfl rfl with }

theorem legal_writeVelT (w : Word) :
    Legal (if velStored w then withPend { s.pend with tLo := velLo w, tHi := velHi w } s else s) := by
  split
  case isTrue hstored =>
    exact legal_withPend_same_start h { h.pend with thresholds := (velStored_iff w).mp hstored } rfl rfl
  case isFalse => exact h

theorem legal_latch : Legal (latch s) :=
  { h with
    cursors := by
      obtain ⟨-, -, -, hdelay, -⟩ := h.params
      obtain ⟨hrd, hwr, hvis⟩ := h.cursors
      rw [latch_delayRd, latch_params, latch_delayWr, latch_visWr]
      refine ⟨?_, hwr, hvis⟩
      split
      case isTrue =>
        have hnonneg := Int.emod_nonneg (s.delayWr - s.pend.delayLen.toNat : Int) (b := s.params.delayCap) (by omega)
        have hlt := Int.emod_lt_of_pos (s.delayWr - s.pend.delayLen.toNat : Int) (b := s.params.delayCap) (by omega)
        omega
      case isFalse => exact hrd
    active := h.pend
    busy := fun hbusy => ⟨(h.busy hbusy).1, h.run (h.busy hbusy).1⟩ }

/-! ### The queue and the events -/

theorem legal_withQueue {q : List EventWord} (hq : q.length ≤ s.params.cmdqDepth) : Legal (withQueue q s) :=
  { h with queue := hq }

theorem legal_pushEvent (e : EventWord) : Legal (pushEvent e s) := by
  unfold pushEvent
  split
  case isTrue hroom => exact legal_withQueue h (by rw [List.length_append]; exact hroom)
  case isFalse => exact legal_countQovf h

theorem legal_withVoices {vs : List Voice} (hlen : vs.length = s.voices.length)
    (hvs : ∀ v ∈ vs, VoiceLegal s.params v) : Legal (withVoices vs s) :=
  { h with voiceCount := hlen.trans h.voiceCount, voices := hvs }

theorem legal_noteOff (k : BitVec 7) : Legal (noteOff k s) :=
  legal_withVoices h (List.length_map _)
    (List.forall_mem_map.mpr fun v hv => voiceLegal_releaseVoice h.params k (h.voices v hv))

theorem legal_noteOn (k vel : BitVec 7) : Legal (noteOn k vel s) := by
  cases htarget : noteTarget s k with
  | none =>
    rw [noteOn_none htarget]
    exact legal_countDrop h
  | some v =>
    have hvoice := voiceLegal_initVoice h.active h.layerSel s.waveSel s.draws k vel (s.voice v)
    rw [noteOn_some htarget]
    exact { legal_withVoices h List.length_set (forall_mem_set h.voices hvoice v) with }

theorem legal_selectWave (d : BitVec 7) : Legal (selectWave d s) := by
  unfold selectWave
  split
  · exact { h with }
  · exact h

theorem legal_selectLayer (d : BitVec 7) : Legal (selectLayer d s) := by
  unfold selectLayer
  split
  case isTrue hlayer => exact { h with layerSel := hlayer }
  case isFalse => exact h

theorem legal_applyEvent (e : Event) : Legal (applyEvent e s) := by
  cases e with
  | reserved | badData => exact legal_countIgn h
  | noteOff _ k => exact legal_noteOff h k
  | noteOn _ k vel => exact legal_noteOn h k vel
  | ccWave _ d => exact legal_selectWave h d
  | ccLayer _ d => exact legal_selectLayer h d
  | ccOther => exact h

theorem legal_drain (n : Nat) : Legal (drain n s) := by
  induction n generalizing s with
  | zero => exact h
  | succ n ih =>
    cases hq : s.queue with
    | nil =>
      rw [drain_nil _ hq]
      exact h
    | cons e q =>
      have hlen := h.queue
      rw [hq, List.length_cons] at hlen
      rw [drain_cons _ hq]
      exact ih (legal_applyEvent (legal_withQueue h (by omega)) _)

theorem legal_boundary : Legal (boundary s) := legal_drain (legal_latch h) _

/-! ### A render -/

theorem legal_startRender {n : Nat} (hrun : s.run = true) (hpos : 0 < n) (hn : n ≤ s.params.nmax) :
    Legal (startRender n s) := by
  obtain ⟨hparams, hrun', hactive⟩ := boundary_frame s
  exact { legal_boundary h with
    busy := fun _ => ⟨hrun'.trans hrun, by
      change StartLegal (boundary s).params (boundary s).active
      rw [hparams, hactive]
      exact h.run hrun⟩
    stopPending := fun _ => decide_eq_true hpos
    progress := by
      change 0 + n ≤ (boundary s).params.nmax
      rwa [Nat.zero_add, hparams] }

theorem legal_delayStep (x : F32) : Legal (delayStep x s).2 := by
  obtain ⟨-, -, -, hdelay, -⟩ := h.params
  obtain ⟨-, -, hvis⟩ := h.cursors
  rw [delayStep_state]
  exact { h with
    mem := memWrite_wf _ _ _ h.mem
    cursors := ⟨Nat.mod_lt _ hdelay.1, Nat.mod_lt _ hdelay.1, hvis⟩ }

theorem legal_output (x : F32) : Legal (output x s).2 := by
  cases hdelay : s.active.delayActive with
  | true =>
    rw [output_active hdelay]
    exact legal_delayStep h x
  | false =>
    rw [output_bypass hdelay]
    exact h

theorem legal_emit (y : F32) : Legal (emit y s) := { h with }

theorem legal_visStep (y : F32) : Legal (visStep y s) := by
  obtain ⟨-, -, -, -, hvis, -⟩ := h.params
  obtain ⟨hrd, hwr, -⟩ := h.cursors
  exact { h with
    mem := memWrite_wf _ _ _ h.mem
    cursors := ⟨hrd, hwr, Nat.mod_lt _ hvis.1⟩ }

theorem legal_channelSample (ch : Nat) (x : F32) : Legal (channelSample ch x s) := by
  cases ch with
  | zero => exact legal_visStep (legal_emit (legal_output h x) _) _
  | succ ch => exact legal_emit (legal_output h x) _

theorem legal_channelSamples (n ch : Nat) (x0 x1 : F32) : Legal (channelSamples n ch x0 x1 s) := by
  induction n generalizing ch s with
  | zero => exact h
  | succ n ih => exact ih (legal_channelSample h ch _) (ch + 1)

theorem legal_mix : Legal (mix s).2.2 := by
  rw [mix_state]
  refine legal_withVoices h (List.length_map _) (List.forall_mem_map.mpr fun v hv => ?_)
  split
  case isTrue hs => exact voiceLegal_voiceStep h.params s.active (h.voices v hv) hs
  case isFalse => exact h.voices v hv

/-- A frame that is not the last: BUSY stays. -/
theorem legal_countFrame (hleft : 1 < s.framesLeft) : Legal (countFrame s) :=
  { h with
    busy := fun _ => h.busy (decide_eq_true (by omega))
    stopPending := fun _ => decide_eq_true (by rw [countFrame_framesLeft]; omega)
    progress := by
      have := h.progress
      rw [countFrame_frameIdx, countFrame_framesLeft, countFrame_params]
      omega }

/-- The last frame: BUSY ends, and RENDER_DONE takes back a pending STOP and RUN with it (45_delay_output.md R531). -/
theorem legal_renderDone (hleft : s.framesLeft = 1) : Legal (renderDone (countFrame s)) := by
  have hidle : ¬ (countFrame s).busy = true := by
    rw [State.busy, countFrame_framesLeft, hleft]
    decide
  have hprogress : (countFrame s).frameIdx + (countFrame s).framesLeft ≤ s.params.nmax := by
    have := h.progress
    rw [countFrame_frameIdx, countFrame_framesLeft]
    omega
  unfold renderDone
  split
  case isTrue =>
    exact { h with
      run := fun hrun => Bool.noConfusion hrun
      busy := fun hbusy => absurd hbusy hidle
      stopPending := fun hstop => Bool.noConfusion hstop
      progress := hprogress }
  case isFalse hstop =>
    exact { h with
      busy := fun hbusy => absurd hbusy hidle
      stopPending := fun hpending => absurd hpending hstop
      progress := hprogress }

theorem legal_frameStep (hbusy : s.busy = true) : Legal (frameStep s) := by
  have hsamples := legal_channelSamples (legal_mix h) s.active.channels.toNat 0 (mix s).1 (mix s).2.1
  have hleft : (channelSamples s.active.channels.toNat 0 (mix s).1 (mix s).2.1 (mix s).2.2).framesLeft = s.framesLeft :=
    channelSamples_framesLeft ..
  have hpos : 0 < s.framesLeft := of_decide_eq_true hbusy
  rw [frameStep_eq]
  dsimp only
  split
  case isTrue hlast =>
    rw [countFrame_framesLeft] at hlast
    exact legal_renderDone hsamples (by omega)
  case isFalse hmore =>
    rw [countFrame_framesLeft] at hmore
    exact legal_countFrame hsamples (by omega)

theorem legal_engineStep : Legal (engineStep s) := by
  unfold engineStep
  split
  case isTrue hbusy => exact legal_frameStep h hbusy
  case isFalse => exact h

/-! ### The control transactions -/

theorem legal_ctrlStart (w : Word) : Answers (exec (.ctrlStart w) s) Legal := by
  cases hrun : s.run with
  | true =>
    exact ⟨_, exec_ctrlStart_running w hrun, { h with stopPending := fun hstop => Bool.noConfusion hstop }⟩
  | false =>
    refine ⟨_, exec_ctrlStart_stopped w hrun, ?_⟩
    split
    case isTrue => exact legal_raise h _
    split
    case isTrue => exact legal_raise h _
    case isFalse hrate hchannels =>
      have hstart : StartLegal s.params s.pend := ⟨(legalRate_iff s).mp (by simpa using hrate),
        (legalChannels_iff s).mp (by simpa using hchannels)⟩
      exact { h with
        run := fun _ => hstart
        busy := fun hbusy => ⟨rfl, (h.busy hbusy).2⟩ }

theorem legal_ctrlStop (w : Word) : Answers (exec (.ctrlStop w) s) Legal := by
  refine ⟨_, rfl, ?_⟩
  split
  case isTrue => exact h
  split
  case isTrue hbusy => exact { h with stopPending := fun _ => hbusy }
  case isFalse hidle =>
    exact { h with
      run := fun hrun => Bool.noConfusion hrun
      busy := fun hbusy => absurd hbusy hidle }

theorem legal_render (w : Word) : Answers (exec (.render w) s) Legal := by
  refine ⟨_, rfl, ?_⟩
  split
  case isTrue => exact legal_raise h _
  split
  case isTrue => exact legal_raise h _
  split
  case isTrue => exact legal_raise h _
  case isFalse hrun _ hcount => exact legal_startRender h (by simpa using hrun) (by omega) (by omega)
end

/-! ## Instructions and steps -/

/-- Every instruction completes and keeps the state legal; the events' own effects among them. -/
theorem exec_legal (i : Instr) {s : State} (h : Legal s) : Answers (exec i s) Legal := by
  cases i with
  | busMisaligned rw a w =>
    refine ⟨_, rfl, legal_raise ?_ _⟩
    split
    · exact h
    · exact legal_returnWord h 0
  | rd a => exact ⟨_, rfl, legal_readLoc h _⟩
  | ctrlSoftReset w => exact ⟨_, rfl, legal_resetBlock h⟩
  | ctrlStart w => exact legal_ctrlStart h w
  | ctrlStop w => exact legal_ctrlStop h w
  | statusW1c w => exact ⟨_, rfl, { h with }⟩
  | evPush w => exact ⟨_, rfl, legal_pushEvent h _⟩
  | render w => exact legal_render h w
  | cntClear c w => exact ⟨_, rfl, legal_clearCounter h c⟩
  | wrSampleRate w | wrChannels w => exact ⟨_, rfl, legal_withPend_stopped h { h.pend with }⟩
  | wrMode w => exact ⟨_, rfl, legal_withPend_same_start h { h.pend with } rfl rfl⟩
  | wrDelayLen w => exact ⟨_, rfl, legal_writeDelayLen h w⟩
  | wrQuantBits w =>
    have hR : RegsLegal s.params { s.pend with quantBits := clampWord w 0 24 } :=
      { h.pend with quantBits := clampWord_zero_le w (by decide) }
    exact ⟨_, rfl, legal_withPend_same_start h hR rfl rfl⟩
  | wrVelT w => exact ⟨_, rfl, legal_writeVelT h w⟩
  | wrF32MasterVolume w | wrF32VoiceGain w | wrF32OscGain w | wrF32DelayGain w | wrF32DelayFeedback w | wrF32DelayMix w
  | wrF32VibRate w | wrF32VibDepth w | wrF32VibOnset w | wrF32TremRate w | wrF32TremDepth w | wrF32AttackS w
  | wrF32DecayS w | wrF32Sustain w | wrF32ReleaseS w | wrF32EnvFloor w | wrF32FiltAFast w | wrF32FiltASlow w
  | wrF32DcBlock w | wrF32Pan w | wrF32VelG0 w | wrF32VelG1 w | wrF32VelG2 w | wrF32VelG3 w | wrF32VelGmin w
  | wrF32VelGmax w => exact ⟨_, rfl, legal_writeFReg h _ w⟩
  | wrPresetCount p w =>
    exact ⟨_, rfl, legal_modifyPreset h p.toNat fun _ hQ => presetLegal_count h.params hQ w⟩
  | wrPresetOct p o w | wrPresetDuty p o w | wrPresetVol p o w | wrPresetDetune p o w =>
    exact ⟨_, rfl, legal_writePField h p o _ w⟩
  | wrIgnored a w => exact ⟨_, rfl, h⟩
  | evReserved e | evBaddata e => exact ⟨_, rfl, legal_countIgn h⟩
  | noteOff ch k rv => exact ⟨_, rfl, legal_noteOff h k⟩
  | noteOn ch k vel => exact ⟨_, rfl, legal_noteOn h k vel⟩
  | ccWave ch d => exact ⟨_, rfl, legal_selectWave h d⟩
  | ccLayer ch d => exact ⟨_, rfl, legal_selectLayer h d⟩
  | ccOther ch ctl d => exact ⟨_, rfl, h⟩

/-- What a step can do: it takes an input off the host's list and runs the transaction, the reset or the engine. -/
theorem step_cases {s t : State} (h : step s = .next t) : ∃ hs,
    (∃ T, exec (decodeBus s.params T) (withHost hs s) = .next t) ∨ t = resetBlock (withHost hs s) ∨
      t = engineStep (withHost hs s) := by
  unfold step at h
  split at h
  case h_1 T rest _ => exact ⟨rest, .inl ⟨T, h⟩⟩
  case h_2 rest _ => exact ⟨rest, .inr (.inl (Host.Outcome.next.inj h).symm)⟩
  case h_3 rest _ => exact ⟨rest, .inr (.inr (Host.Outcome.next.inj h).symm)⟩
  case h_4 => exact ⟨s.host, .inr (.inr (Host.Outcome.next.inj h).symm)⟩

/-- Settles O56: each instruction, the reset and a frame keep the state legal. -/
theorem legalKept : Obligations.LegalKept := by
  unfold Obligations.LegalKept
  intro s t h hstep
  obtain ⟨hs, hcase⟩ := step_cases hstep
  have hinput : Legal (withHost hs s) := legal_withHost h hs
  obtain ⟨T, hexec⟩ | rfl | rfl := hcase
  · obtain ⟨t', hnext, ht'⟩ := exec_legal (decodeBus s.params T) hinput
    obtain rfl : t' = t := Host.Outcome.next.inj (hnext.symm.trans hexec)
    exact ht'
  · exact legal_resetBlock hinput
  · exact legal_engineStep hinput

end Sys2Proof.Machine

/-!
SUPPORT. The events and the buffer boundary (41_voice_allocator.md): what an event word runs, what NOTE_OFF and the control
changes do, how a Note-On finds its voice, and the queue's way through a boundary.
-/

namespace Sys2Proof.Machine

/-! ## An event as an instruction -/

/-- The meaning of an event's instruction is the event's effect at the boundary. -/
theorem exec_toInstr (v : Event) (s : State) : exec v.toInstr s = .next (applyEvent v s) := by cases v <;> rfl

/-- The encoder writes D1H = D2H = 0 (30_encoding.md R200). -/
theorem eventWord_clean (t ch : BitVec 4) (d1 d2 : BitVec 7) :
    ¬ ((eventWord t ch d1 d2).getLsbD 15 = true ∨ (eventWord t ch d1 d2).getLsbD 7 = true) := by
  rw [eventWord_d1h, eventWord_d2h, or_self]
  exact Bool.false_ne_true

/-! ## Malformed events -/

/-- Settles O33: the type check and the check of the high bits, then the one counter. -/
theorem malformedEvents : Obligations.MalformedEvents := by
  unfold Obligations.MalformedEvents
  intro e s known
  have hknown : knownType (e.extractLsb' 20 4) = true ↔ known := by
    simp only [known, knownType_iff, List.mem_cons, List.not_mem_nil, or_false]
    rfl
  exact ⟨fun ht => decode_event_of_decodeEvent (decodeEvent_of_not_knownType _ (hknown.not.mpr ht)),
    fun ht hb => decode_event_of_decodeEvent (decodeEvent_of_badData _ (hknown.mpr ht) hb),
    exec_toInstr (.reserved e) s, exec_toInstr (.badData e) s⟩

/-! ## Control changes -/

/-- The codes of R57 are the positions of the waves in its list. -/
theorem WaveKind.ofCode_eq_getElem? (n : Nat) : WaveKind.ofCode n =
    [WaveKind.sine, .pulseRaw, .sawRaw, .triangleRaw, .pulsePoly, .sawPoly, .trianglePoly][n]? := by
  match n with
  | 0 | 1 | 2 | 3 | 4 | 5 | 6 => rfl
  | _ + 7 => rfl

section
variable {d : BitVec 7} {s : State}

theorem selectWave_of_code {w : WaveKind} (h : WaveKind.ofCode d.toNat = some w) :
    selectWave d s = { s with waveSel := w } := by
  unfold selectWave
  rw [h]

theorem selectWave_of_no_code (h : WaveKind.ofCode d.toNat = none) : selectWave d s = s := by
  unfold selectWave
  rw [h]

theorem selectLayer_of_lt (h : d.toNat < s.params.numPresets) : selectLayer d s = { s with layerSel := d.toNat } :=
  if_pos h

theorem selectLayer_of_not_lt (h : ¬ d.toNat < s.params.numPresets) : selectLayer d s = s := if_neg h
end

section
variable (P : Params) (ch : BitVec 4) (d : BitVec 7)

theorem decode_ccWave : decode P (.event (eventWord 0xB ch P.ccWaveNum d)) = .ccWave ch d := by
  have h := decodeEvent_ccWave P (eventWord_clean 0xB ch P.ccWaveNum d) (eventWord_type ..) (eventWord_data1 ..)
  rw [eventWord_chan, eventWord_data2] at h
  exact decode_event_of_decodeEvent h

theorem decode_ccLayer (hne : P.ccLayerNum ≠ P.ccWaveNum) :
    decode P (.event (eventWord 0xB ch P.ccLayerNum d)) = .ccLayer ch d := by
  have h := decodeEvent_ccLayer P (eventWord_clean 0xB ch P.ccLayerNum d) (eventWord_type ..)
    (by rwa [eventWord_data1]) (eventWord_data1 ..)
  rw [eventWord_chan, eventWord_data2] at h
  exact decode_event_of_decodeEvent h

theorem decode_ccOther {c : BitVec 7} (hw : c ≠ P.ccWaveNum) (hl : c ≠ P.ccLayerNum) :
    decode P (.event (eventWord 0xB ch c d)) = .ccOther ch c d := by
  have h := decodeEvent_ccOther P (eventWord_clean 0xB ch c d) (eventWord_type ..)
    (by rwa [eventWord_data1]) (by rwa [eventWord_data1])
  rw [eventWord_chan, eventWord_data1, eventWord_data2] at h
  exact decode_event_of_decodeEvent h
end

/-- Settles O32: the three decodings, then each control change on its two ranges of data. -/
theorem controlChanges : Obligations.ControlChanges := by
  unfold Obligations.ControlChanges
  intro ch c d s
  refine ⟨decode_ccWave _ ch d, decode_ccLayer _ ch d, decode_ccOther _ ch d, fun w hw => ?_, fun hd => ?_,
    fun hd => ?_, fun hd => ?_, exec_toInstr (.ccOther ch c d) s⟩
  · have hcode : WaveKind.ofCode d.toNat = some w := (WaveKind.ofCode_eq_getElem? _).trans hw
    exact (exec_toInstr (.ccWave ch d) s).trans (congrArg _ (selectWave_of_code hcode))
  · have hcode : WaveKind.ofCode d.toNat = none :=
      (WaveKind.ofCode_eq_getElem? _).trans (List.getElem?_eq_none (Nat.lt_of_not_le hd))
    exact (exec_toInstr (.ccWave ch d) s).trans (congrArg _ (selectWave_of_no_code hcode))
  · exact (exec_toInstr (.ccLayer ch d) s).trans (congrArg _ (selectLayer_of_lt hd))
  · exact (exec_toInstr (.ccLayer ch d) s).trans (congrArg _ (selectLayer_of_not_lt hd))

/-! ## Which voices hold a key, and which are free -/

theorem holds_iff (k : BitVec 7) (v : Voice) :
    (v.active && v.key == some k) = true ↔ v.active = true ∧ v.key = some k := by
  rw [Bool.and_eq_true, beq_iff_eq]

theorem free_iff (v : Voice) : v.free = true ↔ v.active = false ∧ v.envState = .off := by
  rw [Voice.free, Bool.and_eq_true, Bool.not_eq_true', beq_iff_eq]

theorem voice_eq_getElem {s : State} {u : Nat} (hu : u < s.voices.length) : s.voice u = s.voices[u] :=
  List.getD_eq_getElem _ _ hu

theorem forall_voice_iff (s : State) (Q : Voice → Prop) :
    (∀ u, u < s.voices.length → Q (s.voice u)) ↔ ∀ v ∈ s.voices, Q v := by
  rw [List.forall_mem_iff_forall_getElem]
  exact forall₂_congr fun u hu => by rw [voice_eq_getElem hu]

/-- A search of the pool answers the lowest voice with the property. -/
theorem findIdx?_voices_eq_some {s : State} {p : Voice → Bool} {v : Nat} (hv : v < s.voices.length)
    (hp : p (s.voice v) = true) (hbelow : ∀ u, u < v → ¬ p (s.voice u) = true) : s.voices.findIdx? p = some v := by
  rw [List.findIdx?_eq_some_iff_getElem]
  refine ⟨hv, by rwa [voice_eq_getElem hv] at hp, fun u hu => ?_⟩
  have h := hbelow u hu
  rwa [voice_eq_getElem (hu.trans hv)] at h

section
variable {s : State} {k : BitVec 7}

theorem heldVoice_eq_none (h : ∀ v ∈ s.voices, ¬ (v.active = true ∧ v.key = some k)) : heldVoice s.voices k = none :=
  List.findIdx?_eq_none_iff.mpr fun v hv => Bool.eq_false_of_not_eq_true ((holds_iff k v).not.mpr (h v hv))

theorem freeVoice_eq_none (h : ∀ v ∈ s.voices, ¬ (v.active = false ∧ v.envState = .off)) : freeVoice s.voices = none :=
  List.findIdx?_eq_none_iff.mpr fun v hv => Bool.eq_false_of_not_eq_true ((free_iff v).not.mpr (h v hv))

/-! ## The target of a Note-On -/

theorem noteTarget_of_held {v : Nat} (hretrig : s.active.retrigNew = false) (h : heldVoice s.voices k = some v) :
    noteTarget s k = some v := by
  simp only [noteTarget, hretrig, h, Bool.false_eq_true, if_false]

/-- With RETRIG_NEW = 1, or no voice that holds the key, the target is a free voice (R301, R302). -/
theorem noteTarget_of_not_held
    (h : s.active.retrigNew = true ∨ ∀ v ∈ s.voices, ¬ (v.active = true ∧ v.key = some k)) :
    noteTarget s k = freeVoice s.voices := by
  have hfirst : (if s.active.retrigNew then none else heldVoice s.voices k) = none := by
    obtain hretrig | hheld := h
    · exact if_pos hretrig
    · rw [heldVoice_eq_none hheld, ite_self]
  rw [noteTarget, hfirst]
end

/-- Settles O30: R301-R303 find the voice, R305 makes it. -/
theorem noteOnInitializes : Obligations.NoteOnInitializes := by
  unfold Obligations.NoteOnInitializes
  intro ch k vel s v hv held free htarget
  have hnote : noteTarget s k = some v := by
    obtain ⟨hretrig, hheld, hbelow⟩ | ⟨hnone, hfree, hbelow⟩ := htarget
    · exact noteTarget_of_held hretrig (findIdx?_voices_eq_some hv ((holds_iff k _).mpr hheld)
        fun u hu => (holds_iff k _).not.mpr (hbelow u hu))
    · rw [noteTarget_of_not_held (hnone.imp_right (forall_voice_iff s fun x => ¬ (x.active = true ∧ x.key = some k)).mp)]
      exact findIdx?_voices_eq_some hv ((free_iff _).mpr hfree) fun u hu => (free_iff _).not.mpr (hbelow u hu)
  exact ⟨initVoice s.params s.active s.waveSel s.layerSel s.draws k vel (s.voice v),
    (exec_toInstr (.noteOn ch k vel) s).trans (congrArg _ (noteOn_some hnote)), rfl, rfl, rfl, rfl, rfl, rfl,
    initVoice_oscs_length .., fun o ho => initVoice_osc _ _ _ _ _ _ _ _ ho⟩

/-! ## Note-Off -/

section
variable {k : BitVec 7} {v : Voice}

theorem releaseVoice_of_held (h : v.active = true ∧ v.key = some k) : releaseVoice k v =
    { v with active := false, oscs := v.oscs.map fun o => { o with envState := .release } } :=
  if_pos ((holds_iff k v).mpr h)

theorem releaseVoice_of_not_held (h : ¬ (v.active = true ∧ v.key = some k)) : releaseVoice k v = v :=
  if_neg ((holds_iff k v).not.mpr h)
end

theorem noteOff_of_not_held {k : BitVec 7} {s : State}
    (h : ∀ v ∈ s.voices, ¬ (v.active = true ∧ v.key = some k)) : noteOff k s = s := by
  have hvoices : s.voices.map (releaseVoice k) = s.voices :=
    (List.map_congr_left fun v hv => releaseVoice_of_not_held (h v hv)).trans (List.map_id' _)
  rw [noteOff, hvoices]
  rfl

theorem decode_noteOff (P : Params) (ch : BitVec 4) (k rv : BitVec 7) :
    decode P (.event (eventWord 0x8 ch k rv)) = .noteOff ch k rv := by
  have h := decodeEvent_noteOff P (eventWord_clean 0x8 ch k rv) (eventWord_type ..)
  rw [eventWord_chan, eventWord_data1, eventWord_data2] at h
  exact decode_event_of_decodeEvent h

/-- Settles O31: the pool is mapped, voice by voice, and a held voice slot by slot. -/
theorem noteOffReleases : Obligations.NoteOffReleases := by
  unfold Obligations.NoteOffReleases
  intro ch k rv s
  refine ⟨decode_noteOff _ ch k rv, s.voices.map (releaseVoice k), exec_toInstr (.noteOff ch k rv) s,
    List.length_map _, fun v hv => ?_⟩
  have hvoice : (s.voices.map (releaseVoice k))[v]? = some (releaseVoice k s.voices[v]) := by
    rw [List.getElem?_map, List.getElem?_eq_getElem hv, Option.map_some]
  refine ⟨fun hnot => by rw [hvoice, releaseVoice_of_not_held hnot], fun hactive hkey =>
    ⟨_, by rw [hvoice, releaseVoice_of_held ⟨hactive, hkey⟩], List.length_map _, fun o ho => ?_⟩⟩
  rw [List.getElem?_map, List.getElem?_eq_getElem ho, Option.map_some]

/-- Settles O29: no search of the pool answers, so the Note-On only counts; a key that no voice holds releases none. -/
theorem noteOnExhausted : Obligations.NoteOnExhausted := by
  unfold Obligations.NoteOnExhausted
  intro ch k vel s hheld hfree
  have hnote : noteTarget s k = none := (noteTarget_of_not_held hheld).trans (freeVoice_eq_none hfree)
  exact ⟨(exec_toInstr (.noteOn ch k vel) s).trans (congrArg _ (noteOn_none hnote)), fun hnot rv =>
    (exec_toInstr (.noteOff ch k rv) (countDrop s)).trans (congrArg _ (noteOff_of_not_held hnot))⟩

/-! ## The boundary -/

/-- No event reads the queue or changes it. -/
theorem applyEvent_withQueue (v : Event) (q : List EventWord) (s : State) :
    applyEvent v (withQueue q s) = withQueue q (applyEvent v s) := by
  cases v with
  | reserved | badData | noteOff | ccOther => rfl
  | noteOn ch k vel =>
    change noteOn k vel (withQueue q s) = withQueue q (noteOn k vel s)
    have htarget : noteTarget (withQueue q s) k = noteTarget s k := rfl
    cases h : noteTarget s k with
    | none => rw [noteOn_none h, noteOn_none (htarget.trans h)]; rfl
    | some u => rw [noteOn_some h, noteOn_some (htarget.trans h)]; rfl
  | ccWave ch d =>
    change selectWave d (withQueue q s) = withQueue q (selectWave d s)
    cases h : WaveKind.ofCode d.toNat with
    | none => rw [selectWave_of_no_code h, selectWave_of_no_code h]
    | some w => rw [selectWave_of_code h, selectWave_of_code h]; rfl
  | ccLayer ch d =>
    change selectLayer d (withQueue q s) = withQueue q (selectLayer d s)
    by_cases h : d.toNat < s.params.numPresets
    · rw [selectLayer_of_lt h, selectLayer_of_lt (s := withQueue q s) h]; rfl
    · rw [selectLayer_of_not_lt h, selectLayer_of_not_lt (s := withQueue q s) h]

theorem exec_decode_event_withQueue (P : Params) (e : EventWord) (q : List EventWord) (s : State) :
    exec (decode P (.event e)) (withQueue q s) = .next (withQueue q (applyEvent (decodeEvent P e) s)) :=
  (exec_toInstr _ _).trans (congrArg _ (applyEvent_withQueue _ q s))

theorem drain_withQueue_cons (n : Nat) (e : EventWord) (q : List EventWord) (s : State) :
    drain (n + 1) (withQueue (e :: q) s) = drain n (withQueue q (applyEvent (decodeEvent s.params e) s)) :=
  (drain_cons n (withQueue_queue (e :: q) s)).trans (congrArg (drain n) (applyEvent_withQueue _ q s))

/-- A drain that pops every event of the queue is the execution of their instructions in queue order. -/
theorem execAll_eq_drain (es : List EventWord) (s : State) :
    execAll (es.map fun e => decode s.params (.event e)) (withQueue [] s) =
      .next (drain es.length (withQueue es s)) := by
  induction es generalizing s with
  | nil => rfl
  | cons e es ih =>
    rw [List.map_cons, execAll, exec_decode_event_withQueue, List.length_cons, drain_withQueue_cons, ← ih,
      applyEvent_params]

theorem drain_queue (n : Nat) (s : State) : (drain n s).queue = s.queue.drop n := by
  induction n generalizing s with
  | zero => rfl
  | succ n ih =>
    cases h : s.queue with
    | nil => rw [drain_nil _ h, h, List.drop_nil]
    | cons e q => rw [drain_cons n h, ih, applyEvent_queue, withQueue_queue, List.drop_succ_cons]

/-- Settles O9, by induction on the queue. -/
theorem boundaryRunsEvents : Obligations.BoundaryRunsEvents := by
  unfold Obligations.BoundaryRunsEvents
  intro s
  refine ⟨execAll_eq_drain s.queue (latch s), ?_⟩
  rw [boundary, drain_queue, latch_queue, List.drop_length]

end Sys2Proof.Machine

/-!
SUPPORT. The delay line and the output stage (45_delay_output.md R501-R530): what OUTPUT and a channel-sample change, what
one frame leaves in the ring and on the output stream, and the ring after many DELAY_STEPs.
-/

namespace Sys2Proof.Machine

/-! ## OUTPUT and a channel-sample -/

/-- The value of a channel-sample before the quantizer: DELAY_STEP's with the delay active, the soft clip else (R511). -/
def clipValue (x : F32) (s : State) : F32 := if s.active.delayActive then (delayStep x s).1 else tanh x

theorem output_value (x : F32) (s : State) : (output x s).1 = quantStage s.active (clipValue x s) := by
  unfold clipValue
  cases h : s.active.delayActive with
  | true => rw [output_active h]; rfl
  | false => rw [output_bypass h]; rfl

/-- OUTPUT changes the memory and the delay line's cursors only. -/
theorem output_state (x : F32) (s : State) : (output x s).2 =
    { s with mem := (output x s).2.mem, delayRd := (output x s).2.delayRd, delayWr := (output x s).2.delayWr } := by
  cases h : s.active.delayActive with
  | true => rw [output_active h]; rfl
  | false => rw [output_bypass h]

/-- A channel-sample changes the memory, the three cursors and the output stream only. -/
theorem channelSample_state (ch : Nat) (x : F32) (s : State) : channelSample ch x s =
    { s with
      mem := (channelSample ch x s).mem
      delayRd := (channelSample ch x s).delayRd
      delayWr := (channelSample ch x s).delayWr
      visWr := (channelSample ch x s).visWr
      out := (channelSample ch x s).out } := by
  cases ch with
  | zero => rw [channelSample_zero, output_state]; rfl
  | succ ch => rw [channelSample_succ, output_state]; rfl

section
variable (ch : Nat) (x : F32) (s : State)

@[simp] theorem channelSample_params : (channelSample ch x s).params = s.params := by rw [channelSample_state]

@[simp] theorem channelSample_active : (channelSample ch x s).active = s.active := by rw [channelSample_state]

@[simp] theorem channelSample_voices : (channelSample ch x s).voices = s.voices := by rw [channelSample_state]

theorem channelSample_out : (channelSample ch x s).out = s.out ++ [(output x s).1] := by
  cases ch with
  | zero => rw [channelSample_zero, visStep_out, emit_out, output_state]
  | succ ch => rw [channelSample_succ, emit_out, output_state]

theorem channelSample_cursors : (channelSample ch x s).delayRd = (output x s).2.delayRd ∧
    (channelSample ch x s).delayWr = (output x s).2.delayWr := by
  cases ch with
  | zero => exact ⟨rfl, rfl⟩
  | succ ch => exact ⟨rfl, rfl⟩

/-- The visualization ring's cursor moves with channel 0 only (R522). -/
theorem channelSample_visWr :
    (channelSample ch x s).visWr = if ch = 0 then (s.visWr + 1) % s.params.visCap else s.visWr := by
  cases ch with
  | zero => rw [channelSample_zero, visStep_visWr, emit_visWr, emit_params, output_state]; rfl
  | succ ch => rw [channelSample_succ, emit_visWr, output_state]; rfl

theorem channelSample_visWr_lt (h : s.visWr < s.params.visCap) : (channelSample ch x s).visWr < s.params.visCap := by
  rw [channelSample_visWr]
  split
  · exact Nat.mod_lt _ (Nat.zero_lt_of_lt h)
  · exact h

/-- The word for the visualization ring leaves the delay RAM as OUTPUT left it. -/
theorem channelSample_dly (h : s.visWr < 0xE000) (i : Nat) :
    memRead (channelSample ch x s).mem .dly i = memRead (output x s).2.mem .dly i := by
  cases ch with
  | zero =>
    rw [channelSample_zero, visStep_mem, emit_mem, emit_visWr, memRead_dly_memWrite_vis _ _ _ (by rwa [output_state])]
  | succ ch => rw [channelSample_succ, emit_mem]
end

section
variable {x : F32} {s : State}

theorem output_mem_wf (h : s.mem.wf = true) : (output x s).2.mem.wf = true := by
  cases hd : s.active.delayActive with
  | true => rw [output_active hd, delayStep_state]; exact memWrite_wf _ _ _ h
  | false => rw [output_bypass hd]; exact h

theorem channelSample_mem_wf (ch : Nat) (h : s.mem.wf = true) : (channelSample ch x s).mem.wf = true := by
  cases ch with
  | zero => exact memWrite_wf _ _ _ (output_mem_wf h)
  | succ ch => exact output_mem_wf h

/-- DELAY_STEP leaves its value at the write cursor. -/
theorem delayStep_dly_same (h : s.mem.wf = true) : memRead (delayStep x s).2.mem .dly s.delayWr = (delayStep x s).1 := by
  rw [delayStep_state]
  exact memRead_memWrite_same .dly _ _ h

theorem delayStep_dly_other {i : Nat} (h : i ≠ s.delayWr) :
    memRead (delayStep x s).2.mem .dly i = memRead s.mem .dly i := by
  rw [delayStep_state]
  exact memRead_memWrite_other _ .dly _ h
end

/-- Settles O40: DELAY_STEP is one read and one write, at the cursors that `delayStep_state` moves. -/
theorem delayStepResult : Obligations.DelayStepResult := by
  unfold Obligations.DelayStepResult
  intro x s hwf
  exact ⟨rfl, delayStep_dly_same hwf, fun i hi => delayStep_dly_other hi, memWrite_wf _ _ _ hwf, delayStep_state x s⟩

/-! ## The channel-samples of a frame -/

/-- The channel-samples of a frame, after its mix. -/
def frameSamples (s : State) : State :=
  channelSamples s.active.channels.toNat 0 (mix s).1 (mix s).2.1 (mix s).2.2

/-- The counters and RENDER_DONE leave the RAMs, the cursors and the output stream as the channel-samples left them. -/
theorem frameStep_of_samples (s : State) :
    (frameStep s).mem = (frameSamples s).mem ∧ (frameStep s).out = (frameSamples s).out ∧
    (frameStep s).delayRd = (frameSamples s).delayRd ∧ (frameStep s).delayWr = (frameSamples s).delayWr ∧
    (frameStep s).voices = (frameSamples s).voices ∧ (frameStep s).params = (frameSamples s).params := by
  rw [frameStep_eq]
  dsimp only
  split
  · simp [frameSamples]
  · simp [frameSamples]

/-- A channel-sample with the delay bypassed leaves the delay RAM and its cursors (R502). -/
theorem channelSamples_bypass (n ch : Nat) (x0 x1 : F32) {s : State} (hd : s.active.delayActive = false)
    (hcap : s.params.visCap ≤ 0xE000) (hvis : s.visWr < s.params.visCap) :
    (∀ i, memRead (channelSamples n ch x0 x1 s).mem .dly i = memRead s.mem .dly i) ∧
    (channelSamples n ch x0 x1 s).delayRd = s.delayRd ∧ (channelSamples n ch x0 x1 s).delayWr = s.delayWr := by
  induction n generalizing ch s with
  | zero => exact ⟨fun _ => rfl, rfl, rfl⟩
  | succ n ih =>
    rw [channelSamples]
    generalize (if ch = 0 then x0 else x1) = x
    have hbypass := output_bypass (x := x) hd
    obtain ⟨hrd, hwr⟩ := channelSample_cursors ch x s
    have hdly := channelSample_dly ch x s (by omega)
    obtain ⟨hmem', hrd', hwr'⟩ := ih (ch + 1) (s := channelSample ch x s) (by simpa using hd) (by simpa using hcap)
      (by simpa using channelSample_visWr_lt ch x s hvis)
    rw [hbypass] at hrd hwr hdly
    exact ⟨fun i => (hmem' i).trans (hdly i), hrd'.trans hrd, hwr'.trans hwr⟩

/-- Settles O39: the channel-samples of the frame, each with the delay bypassed. -/
theorem delayBypass : Obligations.DelayBypass := by
  unfold Obligations.DelayBypass
  intro s hP hvis hd
  obtain ⟨-, -, -, -, hcap, -⟩ := hP
  obtain ⟨hmem, -, hrd, hwr, -⟩ := frameStep_of_samples s
  rw [hmem, hrd, hwr, frameSamples, mix_state]
  exact channelSamples_bypass _ 0 _ _ (s := withVoices _ s) hd (hcap.2.trans (by decide)) hvis

/-! ## The words of a frame -/

section
variable {s : State}

/-- What a channel-sample leaves in the delay RAM: with the delay active, its unquantized value at the write cursor. -/
theorem channelSample_dly_eq (ch : Nat) (x : F32) (hwf : s.mem.wf = true) (hvis : s.visWr < 0xE000) (i : Nat) :
    memRead (channelSample ch x s).mem .dly i =
      if s.active.delayActive = true ∧ i = s.delayWr then clipValue x s else memRead s.mem .dly i := by
  rw [channelSample_dly ch x s hvis]
  cases hd : s.active.delayActive with
  | true =>
    rw [output_active hd, clipValue, hd, if_pos rfl]
    by_cases hi : i = s.delayWr
    · rw [if_pos ⟨rfl, hi⟩, hi, delayStep_dly_same hwf]
    · rw [if_neg (fun h => hi h.2), delayStep_dly_other hi]
  | false => rw [output_bypass hd, if_neg (fun h => Bool.false_ne_true h.1)]

/-- A channel-sample's word of the visualization ring: channel 0's emitted word at the cursor (R522). -/
theorem channelSample_vis_eq (ch : Nat) (x : F32) (hwf : s.mem.wf = true) {i : Nat} (hi : i < 0xE000) :
    memRead (channelSample ch x s).mem .vis i =
      if ch = 0 ∧ i = s.visWr then (output x s).1 else memRead s.mem .vis i := by
  have houtput : memRead (output x s).2.mem .vis i = memRead s.mem .vis i := by
    cases hd : s.active.delayActive with
    | true => rw [output_active hd, delayStep_state]; exact memRead_vis_memWrite_dly _ _ _ hi
    | false => rw [output_bypass hd]
  cases ch with
  | zero =>
    have hvis : (output x s).2.visWr = s.visWr := by rw [output_state]
    rw [channelSample_zero, visStep_mem, emit_mem, emit_visWr, hvis]
    by_cases h : i = s.visWr
    · rw [if_pos ⟨rfl, h⟩, h, memRead_memWrite_same _ _ _ (output_mem_wf hwf)]
    · rw [if_neg (fun h' => h h'.2), memRead_memWrite_other _ _ _ h, houtput]
  | succ ch => rw [channelSample_succ, emit_mem, houtput, if_neg (fun h => Nat.succ_ne_zero _ h.1)]

theorem channelSample_cursors_active (ch : Nat) (x : F32) (hd : s.active.delayActive = true) :
    (channelSample ch x s).delayRd = (s.delayRd + 1) % s.params.delayCap ∧
    (channelSample ch x s).delayWr = (s.delayWr + 1) % s.params.delayCap := by
  obtain ⟨hrd, hwr⟩ := channelSample_cursors ch x s
  rw [hrd, hwr, output_active hd, delayStep_state]
  exact ⟨rfl, rfl⟩

theorem clipValue_active {x : F32} (hd : s.active.delayActive = true) :
    clipValue x s = delayValue s.active x (memRead s.mem .dly s.delayRd) := if_pos hd

theorem clipValue_bypass {x : F32} (hd : s.active.delayActive = false) : clipValue x s = tanh x :=
  if_neg (by rw [hd]; exact Bool.false_ne_true)

/-- Channel 1 reads the ring after channel 0 has written it (R530). -/
theorem clipValue_second (x0 x1 : F32) (hwf : s.mem.wf = true) (hvis : s.visWr < 0xE000) :
    clipValue x1 (channelSample 0 x0 s) =
      if s.active.delayActive then
        delayValue s.active x1
          (if (s.delayRd + 1) % s.params.delayCap = s.delayWr then clipValue x0 s
           else memRead s.mem .dly ((s.delayRd + 1) % s.params.delayCap))
      else tanh x1 := by
  cases hd : s.active.delayActive with
  | true =>
    obtain ⟨hrd, -⟩ := channelSample_cursors_active 0 x0 hd
    rw [clipValue_active (by rwa [channelSample_active]), channelSample_active, hrd,
      channelSample_dly_eq 0 x0 hwf hvis, hd]
    simp only [true_and, if_true]
  | false => exact clipValue_bypass (by rwa [channelSample_active])
end

/-- The next cursor of a ring of more than one word is another one. -/
theorem succ_mod_ne {w c : Nat} (hw : w < c) (hc : c ≠ 1) : w ≠ (w + 1) % c := by
  rcases Nat.lt_or_ge (w + 1) c with hlt | hge
  · rw [Nat.mod_eq_of_lt hlt]
    omega
  · rw [show w + 1 = c by omega, Nat.mod_self]
    omega

section
variable {s : State} (hwf : s.mem.wf = true) (hvis : s.visWr < s.params.visCap) (hcap : s.params.visCap ≤ 0xE000)
include hwf hvis hcap

/-- The frame of one channel: its word, and its unquantized value in the ring. -/
theorem mono_words (x0 : F32) :
    (channelSample 0 x0 s).out = s.out ++ [quantStage s.active (clipValue x0 s)] ∧
    (s.active.delayActive = true → memRead (channelSample 0 x0 s).mem .dly s.delayWr = clipValue x0 s) := by
  rw [channelSample_out, output_value]
  refine ⟨rfl, fun hd => ?_⟩
  rw [channelSample_dly_eq 0 x0 hwf (hvis.trans_le hcap), if_pos ⟨hd, rfl⟩]

/-- The frame of two channels: their words in channel order, and their unquantized values at the write cursor and the next
one; in a ring of one word the second overwrites the first. -/
theorem stereo_words (x0 x1 : F32) (hwr : s.delayWr < s.params.delayCap) :
    let t := channelSample 1 x1 (channelSample 0 x0 s)
    let y1 := clipValue x1 (channelSample 0 x0 s)
    t.out = s.out ++ [quantStage s.active (clipValue x0 s), quantStage s.active y1] ∧
    (s.active.delayActive = true →
      memRead t.mem .dly ((s.delayWr + 1) % s.params.delayCap) = y1 ∧
      (s.params.delayCap ≠ 1 → memRead t.mem .dly s.delayWr = clipValue x0 s)) := by
  intro t y1
  obtain ⟨hout, hring⟩ := mono_words hwf hvis hcap x0
  have hvis' : (channelSample 0 x0 s).visWr < 0xE000 := (channelSample_visWr_lt 0 x0 s hvis).trans_le hcap
  refine ⟨?_, fun hd => ?_⟩
  · rw [channelSample_out, output_value, hout, channelSample_active, List.append_assoc]
    rfl
  · obtain ⟨-, hwr1⟩ := channelSample_cursors_active 0 x0 hd
    have hlast : ∀ i, memRead t.mem .dly i = if i = (s.delayWr + 1) % s.params.delayCap then y1 else
        memRead (channelSample 0 x0 s).mem .dly i := fun i => by
      rw [channelSample_dly_eq 1 x1 (channelSample_mem_wf 0 hwf) hvis', channelSample_active, hd, hwr1]
      simp only [true_and]
      rfl
    exact ⟨by rw [hlast, if_pos rfl], fun hne => by rw [hlast, if_neg (succ_mod_ne hwr hne), hring hd]⟩
end

theorem frameSamples_mono {s : State} (h : s.active.channels = 1) :
    frameSamples s = channelSample 0 (mix s).1 (mix s).2.2 := by
  rw [frameSamples, h]
  rfl

theorem frameSamples_stereo {s : State} (h : s.active.channels = 2) :
    frameSamples s = channelSample 1 (mix s).2.1 (channelSample 0 (mix s).1 (mix s).2.2) := by
  rw [frameSamples, h]
  rfl

/-- Settles O60: one channel-sample in mono, two in stereo, after a mix that changes the voices only. -/
theorem frameOutput : Obligations.FrameOutput := by
  unfold Obligations.FrameOutput
  intro s hP hwf hvis hrd hwr R cap clip q next y0 y1 after
  obtain ⟨-, -, -, -, hviscap, -⟩ := hP
  have hcap : s.params.visCap ≤ 0xE000 := hviscap.2.trans (by decide)
  obtain ⟨hmem, hout, -⟩ := frameStep_of_samples s
  have hafter : ∀ i, after i = memRead (frameSamples s).mem .dly i := fun i => congrArg (memRead · .dly i) hmem
  obtain ⟨vs, hmix⟩ : ∃ vs, (mix s).2.2 = withVoices vs s := ⟨_, mix_state s⟩
  refine ⟨fun hmono => ?_, fun hstereo => ?_⟩
  · have hwords := mono_words (s := withVoices vs s) hwf hvis hcap (mix s).1
    rw [hafter, hout, frameSamples_mono hmono, hmix]
    exact hwords
  · have hwords := stereo_words (s := withVoices vs s) hwf hvis hcap (mix s).1 (mix s).2.1 hwr
    rw [clipValue_second (s := withVoices vs s) _ _ hwf (hvis.trans_le hcap)] at hwords
    rw [hafter, hafter, hout, frameSamples_stereo hstereo, hmix]
    exact hwords

/-! ## The ring over many samples -/

theorem delaySteps_append (xs xs' : List F32) (s : State) : delaySteps (xs ++ xs') s =
    ((delaySteps xs s).1 ++ (delaySteps xs' (delaySteps xs s).2).1, (delaySteps xs' (delaySteps xs s).2).2) := by
  induction xs generalizing s with
  | nil => rfl
  | cons x xs ih =>
    rw [List.cons_append, delaySteps, delaySteps, ih]
    rfl

theorem delaySteps_cons (x : F32) (xs : List F32) (s : State) : delaySteps (x :: xs) s =
    ((delayStep x s).1 :: (delaySteps xs (delayStep x s).2).1, (delaySteps xs (delayStep x s).2).2) := rfl

@[simp] theorem delaySteps_length (xs : List F32) (s : State) : (delaySteps xs s).1.length = xs.length := by
  induction xs generalizing s with
  | nil => rfl
  | cons x xs ih => rw [delaySteps_cons, List.length_cons, ih, List.length_cons]

section
variable {s : State}

theorem delaySteps_params (xs : List F32) (s : State) : (delaySteps xs s).2.params = s.params := by
  induction xs generalizing s with
  | nil => rfl
  | cons x xs ih => exact ih (delayStep x s).2

theorem delaySteps_mem_wf (xs : List F32) (h : s.mem.wf = true) : (delaySteps xs s).2.mem.wf = true := by
  induction xs generalizing s with
  | nil => exact h
  | cons x xs ih => exact ih (memWrite_wf _ _ _ h)

theorem delaySteps_delayWr (xs : List F32) (h : s.delayWr < s.params.delayCap) :
    (delaySteps xs s).2.delayWr = (s.delayWr + xs.length) % s.params.delayCap := by
  induction xs generalizing s with
  | nil => exact (Nat.mod_eq_of_lt h).symm
  | cons x xs ih =>
    have hstep := ih (s := (delayStep x s).2) (Nat.mod_lt _ (Nat.zero_lt_of_lt h))
    rw [delaySteps_cons, hstep, delayStep_state, List.length_cons]
    change ((s.delayWr + 1) % s.params.delayCap + xs.length) % s.params.delayCap = _
    rw [Nat.mod_add_mod]
    congr 1
    omega

/-- DELAY_STEPs that do not reach the end of the ring leave every word outside those at and after the write cursor. -/
theorem delaySteps_dly_other {xs : List F32} (hfit : s.delayWr + xs.length ≤ s.params.delayCap) {j : Nat}
    (hj : j < s.delayWr ∨ s.delayWr + xs.length ≤ j) :
    memRead (delaySteps xs s).2.mem .dly j = memRead s.mem .dly j := by
  induction xs generalizing s with
  | nil => rfl
  | cons x xs ih =>
    rw [List.length_cons] at hfit hj
    rw [delaySteps_cons, ← delayStep_dly_other (x := x) (show j ≠ s.delayWr by omega)]
    cases xs with
    | nil => rfl
    | cons x' xs' =>
      rw [List.length_cons] at hfit hj
      have hwr : (delayStep x s).2.delayWr = s.delayWr + 1 := Nat.mod_eq_of_lt (by omega)
      refine ih ?_ ?_
      · rw [hwr, List.length_cons]; exact (show s.delayWr + 1 + (xs'.length + 1) ≤ s.params.delayCap by omega)
      · rw [hwr, List.length_cons]; omega

/-- DELAY_STEPs that do not reach the end of the ring leave their outputs in order from the write cursor on. -/
theorem delaySteps_dly_same {xs : List F32} (hwf : s.mem.wf = true) (hfit : s.delayWr + xs.length ≤ s.params.delayCap)
    {i : Nat} (hi : i < xs.length) :
    some (memRead (delaySteps xs s).2.mem .dly (s.delayWr + i)) = (delaySteps xs s).1[i]? := by
  induction xs generalizing s i with
  | nil => exact absurd hi (Nat.not_lt_zero _)
  | cons x xs ih =>
    rw [List.length_cons] at hfit hi
    rw [delaySteps_cons]
    rcases Nat.lt_or_ge (s.delayWr + 1) s.params.delayCap with hlt | hge
    · have hwr : (delayStep x s).2.delayWr = s.delayWr + 1 := Nat.mod_eq_of_lt hlt
      have hfit' : (delayStep x s).2.delayWr + xs.length ≤ (delayStep x s).2.params.delayCap := by
        rw [hwr]; exact (show s.delayWr + 1 + xs.length ≤ s.params.delayCap by omega)
      cases i with
      | zero =>
        rw [Nat.add_zero, delaySteps_dly_other hfit' (by omega), delayStep_dly_same hwf]
        rfl
      | succ i =>
        have h := ih (s := (delayStep x s).2) (memWrite_wf _ _ _ hwf) hfit' (i := i) (by omega)
        rw [hwr, show s.delayWr + 1 + i = s.delayWr + (i + 1) by omega] at h
        exact h
    · obtain rfl : xs = [] := List.eq_nil_of_length_eq_zero (by omega)
      obtain rfl : i = 0 := Nat.lt_one_iff.mp hi
      exact congrArg some (delayStep_dly_same hwf)
end

/-- Settles O42: the first C writes fill the ring, and the k after them overwrite its first k words. -/
theorem ringCorrectness : Obligations.RingCorrectness := by
  unfold Obligations.RingCorrectness
  intro s xs k hwf hwr hk hlen j hj
  obtain ⟨first, rest, rfl, hfirst⟩ : ∃ first rest, xs = first ++ rest ∧ first.length = s.params.delayCap :=
    ⟨xs.take s.params.delayCap, xs.drop s.params.delayCap, (List.take_append_drop ..).symm,
      by rw [List.length_take]; omega⟩
  have hrest : rest.length = k := by rw [List.length_append] at hlen; omega
  obtain ⟨t, ht⟩ : ∃ t, t = (delaySteps first s).2 := ⟨_, rfl⟩
  have htcap : t.params.delayCap = s.params.delayCap := by rw [ht, delaySteps_params]
  have htwr : t.delayWr = 0 := by
    rw [ht, delaySteps_delayWr _ (by omega), hwr, hfirst, Nat.zero_add, Nat.mod_self]
  have htwf : t.mem.wf = true := ht ▸ delaySteps_mem_wf first hwf
  rw [delaySteps_append, ← ht]
  split
  case isTrue hlt =>
    have h := delaySteps_dly_same (xs := rest) htwf (by omega) (i := j) (by omega)
    rw [htwr, Nat.zero_add] at h
    rw [h, List.getElem?_append_right (by rw [delaySteps_length]; omega), delaySteps_length, hfirst,
      Nat.add_sub_cancel_left]
  case isFalse hge =>
    have h := delaySteps_dly_same (xs := first) hwf (by omega) (i := j) (by omega)
    rw [hwr, Nat.zero_add] at h
    rw [delaySteps_dly_other (s := t) (by omega) (by omega), ht, h,
      List.getElem?_append_left (by rw [delaySteps_length]; omega)]

end Sys2Proof.Machine

/-!
SUPPORT. Binary32 values as rational numbers: the operations round to the nearest value, so a result lies between any two
values of the format that the exact result lies between.
-/

namespace Sys2Proof.Machine

/-! ## Values -/

/-- The value of a finite word. -/
def fval (x : F32) : ℚ := fvalue x / 2 ^ 149

theorem fvalue_cast (x : F32) : (fvalue x : ℚ) = fval x * 2 ^ 149 := by
  rw [fval, div_mul_cancel₀ _ (by positivity)]

@[simp] theorem fval_fneg (x : F32) : fval (fneg x) = -fval x := by
  rw [fval, fval, fvalue_fneg, Int.cast_neg, neg_div]

theorem fval_le_iff (x y : F32) : fval x ≤ fval y ↔ fvalue x ≤ fvalue y := by
  rw [fval, fval, div_le_div_iff_of_pos_right (by positivity), Int.cast_le]

theorem fval_lt_iff (x y : F32) : fval x < fval y ↔ fvalue x < fvalue y := by
  rw [← not_le, ← not_le, fval_le_iff]

theorem fval_fabs (x : F32) : fval (fabs x) = |fval x| := by
  rw [fval, fval, abs_div, abs_of_pos (show (0 : ℚ) < 2 ^ 149 by positivity), ← Int.cast_abs, abs_fvalue, fvalue_eq,
    msb_fabs, fmag_fabs, signed_false]

theorem fle_iff_fval {x y : F32} (hx : fIsFinite x = true) (hy : fIsFinite y = true) :
    fle x y = true ↔ fval x ≤ fval y := by
  rw [fle_of_finite hx hy, decide_eq_true_eq, fval_le_iff]

theorem flt_iff_fval {x y : F32} (hx : fIsFinite x = true) (hy : fIsFinite y = true) :
    flt x y = true ↔ fval x < fval y := by
  rw [flt_of_finite hx hy, decide_eq_true_eq, fval_lt_iff]

theorem fval_f0 : fval f0 = 0 := by rw [fval, fvalue_f0, Int.cast_zero, zero_div]

theorem fval_of_fvalue {x : F32} {q : ℚ} (h : (fvalue x : ℚ) = q * 2 ^ 149) : fval x = q := by
  rw [fval, h, mul_div_assoc, div_self (by positivity), mul_one]

theorem fval_f1 : fval f1 = 1 := fval_of_fvalue (by rw [fvalue_f1]; norm_num)

theorem fval_fHalf : fval fHalf = 1 / 2 := fval_of_fvalue (by rw [fvalue_fHalf]; norm_num)

theorem fval_fQuarter : fval fQuarter = 1 / 4 := fval_of_fvalue (by rw [fvalue_fQuarter]; norm_num)

theorem fval_f1p25 : fval f1p25 = 5 / 4 := fval_of_fvalue (by rw [fvalue_f1p25]; norm_num)

/-- The value of a positive normal word from its exponent and significand. -/
theorem fval_of_significand {x : F32} (q c : Nat) (hx : x.msb = false ∧ fmag x = q * 2 ^ 23 + c) (hlo : 2 ^ 23 ≤ c)
    (hhi : c ≤ 2 ^ 24) : fval x = c * 2 ^ q / 2 ^ 149 := by
  rw [fval, fvalue_of_significand hx hlo hhi]
  push_cast
  rfl

/-! ## Numbers that are values of the format -/

/-- The number is the value of a finite word. -/
def Rep (q : ℚ) : Prop := ∃ y, fIsFinite y = true ∧ fval y = q

theorem Rep.neg {q : ℚ} (h : Rep q) : Rep (-q) := by
  obtain ⟨y, hy, rfl⟩ := h
  exact ⟨fneg y, by rwa [fIsFinite_fneg], fval_fneg y⟩

@[simp] theorem rep_neg_iff {q : ℚ} : Rep (-q) ↔ Rep q := ⟨fun h => neg_neg q ▸ h.neg, Rep.neg⟩

/-- A multiple of a power of two, of at most 24 bits. -/
theorem rep_units {m q : Nat} (hm : m ≤ 2 ^ 24) (hq : q ≤ 252) : Rep (m * 2 ^ q / 2 ^ 149) := by
  obtain ⟨y, hy⟩ := exists_magUnits_eq q hm
  have hfin : y < infMag := by
    rw [lt_infMag_iff, hy]
    calc m * 2 ^ q ≤ 2 ^ 24 * 2 ^ 252 := Nat.mul_le_mul hm (Nat.pow_le_pow_right (by decide) hq)
      _ < 2 ^ 23 * 2 ^ 254 := by norm_num
  have hlt : y < 2 ^ 31 := hfin.trans (by decide)
  refine ⟨fpack false y, (fIsFinite_fpack _ hlt).mpr hfin, ?_⟩
  rw [fval, fvalue_fpack _ hlt, hy, signed_false]
  push_cast
  rfl

theorem rep_nat_mul {m : Nat} (hm : m ≤ 2 ^ 24) {k : Nat} (hk : k ≤ 103) : Rep (m * 2 ^ k) := by
  have h := rep_units hm (q := k + 149) (by omega)
  rwa [pow_add, ← mul_assoc, mul_div_assoc, div_self (by positivity), mul_one] at h

theorem rep_int_mul {m : Int} (hm : |m| ≤ 2 ^ 24) {k : Nat} (hk : k ≤ 103) : Rep (m * 2 ^ k) := by
  obtain ⟨n, rfl | rfl⟩ := Int.eq_nat_or_neg m
  · exact rep_nat_mul (by rw [Nat.abs_cast] at hm; omega) hk
  · rw [Int.cast_neg, neg_mul, rep_neg_iff]
    exact rep_nat_mul (by rw [abs_neg, Nat.abs_cast] at hm; omega) hk

theorem rep_nat_div {m : Nat} (hm : m ≤ 2 ^ 24) {k : Nat} (hk : k ≤ 149) : Rep (m / 2 ^ k) := by
  have h := rep_units hm (q := 149 - k) (by omega)
  rwa [mul_div_assoc, show (2 : ℚ) ^ 149 = 2 ^ (149 - k) * 2 ^ k by rw [← pow_add, Nat.sub_add_cancel hk],
    ← div_div, div_self (by positivity), ← div_eq_mul_one_div] at h

theorem rep_int_div {m : Int} (hm : |m| ≤ 2 ^ 24) {k : Nat} (hk : k ≤ 149) : Rep (m / 2 ^ k) := by
  obtain ⟨n, rfl | rfl⟩ := Int.eq_nat_or_neg m
  · exact rep_nat_div (by rw [Nat.abs_cast] at hm; omega) hk
  · rw [Int.cast_neg, neg_div, rep_neg_iff]
    exact rep_nat_div (by rw [abs_neg, Nat.abs_cast] at hm; omega) hk

theorem rep_two_pow {k : Nat} (hk : k ≤ 103) : Rep (2 ^ k) := by
  have h := rep_nat_mul (m := 1) (by decide) hk
  rwa [Nat.cast_one, one_mul] at h

/-- The value of the format below a power of two. -/
theorem rep_below_two_pow {k : Nat} (hk : k ≤ 103) : Rep (2 ^ (24 + k) - 2 ^ k) := by
  have h := rep_nat_mul (m := 2 ^ 24 - 1) (by decide) hk
  rwa [Nat.cast_sub (by decide), Nat.cast_one, Nat.cast_pow, Nat.cast_ofNat, sub_mul, one_mul, ← pow_add] at h

theorem rep_nat {m : Nat} (hm : m ≤ 2 ^ 24) : Rep m := by
  have h := rep_nat_mul hm (k := 0) (by omega)
  rwa [pow_zero, mul_one] at h

@[simp] theorem rep_zero : Rep 0 := ⟨f0, by decide, fval_f0⟩

@[simp] theorem rep_one : Rep 1 := ⟨f1, by decide, fval_f1⟩

theorem rep_half : Rep (1 / 2) := ⟨fHalf, by decide, fval_fHalf⟩

@[simp] theorem rep_ofNat (m : Nat) [m.AtLeastTwo] (hm : m ≤ 2 ^ 24) : Rep (ofNat(m) : ℚ) := rep_nat hm

/-- The middle of the largest finite value and 2^128. -/
def fTop : ℚ := (2 ^ 25 - 1) * 2 ^ 103

theorem lt_fTop {q : ℚ} (h : q ≤ 2 ^ 100) : q < fTop := h.trans_lt (by norm_num [fTop])

theorem fTop_units : (((2 ^ 25 - 1) * 2 ^ 252 : Int) : ℚ) = fTop * 2 ^ 149 := by rw [fTop]; norm_num

theorem Rep.abs_lt_top {q : ℚ} (h : Rep q) : |q| < fTop := by
  obtain ⟨y, hy, rfl⟩ := h
  have hlt := Int.cast_lt (R := ℚ).mpr (abs_fvalue_lt_top hy)
  rw [fTop_units, Int.cast_abs, fvalue_cast, abs_mul, abs_of_pos (show (0 : ℚ) < 2 ^ 149 by positivity)] at hlt
  exact lt_of_mul_lt_mul_right hlt (by positivity)

theorem abs_lt_top_of_between {lo hi z : ℚ} (hlo : Rep lo) (hhi : Rep hi) (h1 : lo ≤ z) (h2 : z ≤ hi) : |z| < fTop :=
  abs_lt.mpr ⟨(abs_lt.mp hlo.abs_lt_top).1.trans_le h1, h2.trans_lt (abs_lt.mp hhi.abs_lt_top).2⟩

/-! ## Rounding to nearest -/

/-- `x` is a finite value and none is nearer to `z`. -/
structure Nearest (x : F32) (z : ℚ) : Prop where
  finite : fIsFinite x = true
  nearest : ∀ y, fIsFinite y = true → |fval x - z| ≤ |fval y - z|

theorem NearestEven.nearest {x : F32} {d z : Int} (h : NearestEven x d z) (hx : fIsFinite x = true) (hd : d ≠ 0) :
    Nearest x (z / (d * 2 ^ 149)) := by
  refine ⟨hx, fun y hy => ?_⟩
  have hd' : (d : ℚ) * 2 ^ 149 ≠ 0 := mul_ne_zero (Int.cast_ne_zero.mpr hd) (by positivity)
  have hscale : ∀ w : F32, ((|fvalue w * d - z| : Int) : ℚ) = |fval w - z / (d * 2 ^ 149)| * |(d : ℚ) * 2 ^ 149| := by
    intro w
    rw [← abs_mul, sub_mul, div_mul_cancel₀ _ hd', Int.cast_abs, Int.cast_sub, Int.cast_mul, fvalue_cast]
    congr 1
    ring
  have hle : ((|fvalue x * d - z| : Int) : ℚ) ≤ ((|fvalue y * d - z| : Int) : ℚ) := Int.cast_le.mpr (h y hy).1
  rw [hscale, hscale] at hle
  exact le_of_mul_le_mul_right hle (abs_pos.mpr hd')

section
variable {a b : F32} (ha : fIsFinite a = true) (hb : fIsFinite b = true)
include ha hb

theorem nearest_fadd (h : |fval a + fval b| < fTop) : Nearest (fadd a b) (fval a + fval b) := by
  have hfin : fIsFinite (fadd a b) = true := by
    rw [fadd_finite_iff ha hb, ← Int.cast_lt (R := ℚ), fTop_units, Int.cast_abs, Int.cast_add, fvalue_cast, fvalue_cast,
      ← add_mul, abs_mul, abs_of_pos (show (0 : ℚ) < 2 ^ 149 by positivity)]
    exact mul_lt_mul_of_pos_right h (by positivity)
  have hn := (fadd_nearest ha hb hfin).nearest hfin one_ne_zero
  rwa [Int.cast_one, one_mul, Int.cast_add, add_div] at hn

theorem nearest_fsub (h : |fval a - fval b| < fTop) : Nearest (fsub a b) (fval a - fval b) := by
  rw [sub_eq_add_neg, ← fval_fneg] at h ⊢
  exact nearest_fadd ha (by rwa [fIsFinite_fneg]) h

theorem nearest_fmul (h : |fval a * fval b| < fTop) : Nearest (fmul a b) (fval a * fval b) := by
  have hfin : fIsFinite (fmul a b) = true := by
    rw [fmul_finite_iff ha hb, ← Int.cast_lt (R := ℚ), Int.cast_mul _ (2 ^ 149), fTop_units, Int.cast_abs, Int.cast_mul,
      fvalue_cast, fvalue_cast, mul_mul_mul_comm, abs_mul, Int.cast_pow, Int.cast_ofNat, mul_assoc fTop,
      abs_of_pos (show (0 : ℚ) < 2 ^ 149 * 2 ^ 149 by positivity)]
    exact mul_lt_mul_of_pos_right h (by positivity)
  have hn := (fmul_nearest ha hb hfin).nearest hfin (by positivity)
  rwa [Int.cast_mul, Int.cast_pow, Int.cast_ofNat, mul_div_mul_comm] at hn

theorem nearest_fdiv (h0 : fval b ≠ 0) (h : |fval a / fval b| < fTop) : Nearest (fdiv a b) (fval a / fval b) := by
  have h0' : fvalue b ≠ 0 := fun h => h0 (by rw [fval, h, Int.cast_zero, zero_div])
  have hfin : fIsFinite (fdiv a b) = true := by
    rw [abs_div, div_lt_iff₀ (abs_pos.mpr h0)] at h
    rw [fdiv_finite_iff ha hb h0', ← Int.cast_lt (R := ℚ), Int.cast_mul, Int.cast_mul, fTop_units, Int.cast_abs,
      Int.cast_abs, Int.cast_pow, Int.cast_ofNat, fvalue_cast, fvalue_cast, abs_mul, abs_mul,
      abs_of_pos (show (0 : ℚ) < 2 ^ 149 by positivity)]
    calc |fval a| * 2 ^ 149 * 2 ^ 149 < fTop * |fval b| * 2 ^ 149 * 2 ^ 149 := by gcongr
      _ = fTop * 2 ^ 149 * (|fval b| * 2 ^ 149) := by ring
  have hn := (fdiv_nearest ha hb h0' hfin).nearest hfin h0'
  rwa [Int.cast_mul, Int.cast_pow, Int.cast_ofNat, mul_div_mul_right _ _ (by positivity), fvalue_cast, fvalue_cast,
    mul_div_mul_right _ _ (by positivity)] at hn
end

section
variable {x : F32} {z q : ℚ}

theorem Nearest.neg (h : Nearest x z) : Nearest (fneg x) (-z) := by
  refine ⟨by rw [fIsFinite_fneg]; exact h.finite, fun y hy => ?_⟩
  have hle := h.nearest (fneg y) (by rwa [fIsFinite_fneg])
  have hx : fval (fneg x) - -z = -(fval x - z) := by rw [fval_fneg]; ring
  have hy : fval y - -z = -(fval (fneg y) - z) := by rw [fval_fneg]; ring
  rwa [hx, hy, abs_neg, abs_neg]

/-- A value of the format above the exact result is above the rounded one. -/
theorem Nearest.le (h : Nearest x z) (hq : Rep q) (hz : z ≤ q) : fval x ≤ q := by
  obtain ⟨y, hy, rfl⟩ := hq
  by_contra hlt
  have hle := h.nearest y hy
  rw [abs_of_nonneg (by linarith), abs_of_nonneg (by linarith)] at hle
  linarith

theorem Nearest.ge (h : Nearest x z) (hq : Rep q) (hz : q ≤ z) : q ≤ fval x := by
  have hle := h.neg.le hq.neg (neg_le_neg hz)
  rw [fval_fneg] at hle
  linarith

theorem Nearest.eq (h : Nearest x z) (hz : Rep z) : fval x = z := le_antisymm (h.le hz le_rfl) (h.ge hz le_rfl)

/-- A value of the format below the next one above `m * 2^q` units is at most `m * 2^q` units. -/
theorem fval_le_of_lt_succ {m q : Nat} (hlo : 2 ^ 23 ≤ m) (hhi : m < 2 ^ 24)
    (h : fval x < (m + 1) * 2 ^ q / 2 ^ 149) : fval x ≤ m * 2 ^ q / 2 ^ 149 := by
  rw [fval, div_lt_div_iff_of_pos_right (by positivity)] at h
  rw [fval, div_le_div_iff_of_pos_right (by positivity)]
  have hunits : fvalue x < ((m + 1) * 2 ^ q : Nat) := by exact_mod_cast h
  have hm := magUnits_significand (q := q) (m := m) (.inr hlo) hhi.le
  have hm1 := magUnits_significand (q := q) (m := m + 1) (.inr (by omega)) hhi
  have hle : fvalue x ≤ (m * 2 ^ q : Nat) := by
    rw [← hm1] at hunits
    rw [← hm]
    rw [fvalue_eq] at hunits ⊢
    cases hs : x.msb with
    | true => rw [signed_true]; omega
    | false =>
      rw [hs, signed_false, Nat.cast_lt, magUnits_strictMono.lt_iff_lt] at hunits
      rw [signed_false, Nat.cast_le]
      exact magUnits_mono (by omega)
  exact_mod_cast hle

/-- An exact result below the middle of `m * 2^q` units and the next value is rounded to at most `m * 2^q` units. -/
theorem Nearest.le_of_lt_middle (h : Nearest x z) {m q : Nat} (hlo : 2 ^ 23 ≤ m) (hhi : m < 2 ^ 24) (hq : q ≤ 252)
    (hz : z < (m + 1 / 2) * 2 ^ q / 2 ^ 149) : fval x ≤ m * 2 ^ q / 2 ^ 149 := by
  have hrep := rep_units hhi.le hq
  rcases le_total z (m * 2 ^ q / 2 ^ 149) with hle | hge
  · exact h.le hrep hle
  refine fval_le_of_lt_succ hlo hhi ?_
  obtain ⟨y, hy, hyval⟩ := hrep
  have hnear := h.nearest y hy
  rw [hyval, abs_of_nonpos (sub_nonpos.mpr hge)] at hnear
  have hsucc : ((m : ℚ) + 1) * 2 ^ q / 2 ^ 149 = 2 * ((m + 1 / 2) * 2 ^ q / 2 ^ 149) - m * 2 ^ q / 2 ^ 149 := by ring
  rw [hsucc]
  linarith [le_abs_self (fval x - z)]

/-- The rounding error is at most half of the unit of the last place. -/
theorem Nearest.abs_sub_le (h : Nearest x z) {k : Nat} (hk : k ≤ 103) (hz : |z| ≤ 2 ^ 24 * 2 ^ k) :
    |fval x - z| ≤ 2 ^ k / 2 := by
  have hk0 : (0 : ℚ) < 2 ^ k := by positivity
  have hround := abs_sub_round (z / 2 ^ k)
  have hsmall : |z / 2 ^ k| ≤ 2 ^ 24 := by rwa [abs_div, abs_of_pos hk0, div_le_iff₀ hk0]
  have hint : |round (z / 2 ^ k)| ≤ 2 ^ 24 := by
    have hlt : ((|round (z / 2 ^ k)| : Int) : ℚ) < ((2 ^ 24 + 1 : Int) : ℚ) := by
      push_cast
      have htri := abs_sub_abs_le_abs_sub ((round (z / 2 ^ k) : Int) : ℚ) (z / 2 ^ k)
      rw [abs_sub_comm] at hround
      linarith
    exact Int.lt_add_one_iff.mp (Int.cast_lt.mp hlt)
  obtain ⟨y, hy, hyval⟩ := rep_int_mul hint hk
  refine (h.nearest y hy).trans ?_
  have hdist : fval y - z = -((z / 2 ^ k - round (z / 2 ^ k)) * 2 ^ k) := by
    rw [hyval, sub_mul, div_mul_cancel₀ _ hk0.ne']; ring
  rw [hdist, abs_neg, abs_mul, abs_of_pos hk0]
  calc |z / 2 ^ k - round (z / 2 ^ k)| * 2 ^ k ≤ 1 / 2 * 2 ^ k := by gcongr
    _ = 2 ^ k / 2 := by ring
end

/-! ## Intervals -/

/-- A finite word with its value between `lo` and `hi`. -/
structure Between (lo hi : ℚ) (x : F32) : Prop where
  finite : fIsFinite x = true
  ge : lo ≤ fval x
  le : fval x ≤ hi

/-- A finite word of magnitude at most `b`. -/
abbrev AbsLe (b : ℚ) (x : F32) : Prop := Between (-b) b x

section
variable {lo hi a b c d z : ℚ} {x y : F32}

theorem Between.mono (h : Between a b x) (hlo : lo ≤ a) (hhi : b ≤ hi) : Between lo hi x :=
  ⟨h.finite, hlo.trans h.ge, h.le.trans hhi⟩

theorem Between.absLe (h : Between 0 b x) : AbsLe b x := h.mono (by linarith [h.ge.trans h.le]) le_rfl

theorem Between.abs_fval_le (h : AbsLe b x) : |fval x| ≤ b := abs_le.mpr ⟨h.ge, h.le⟩

theorem absLe_of_abs_fval_le (hx : fIsFinite x = true) (h : |fval x| ≤ b) : AbsLe b x :=
  ⟨hx, (abs_le.mp h).1, (abs_le.mp h).2⟩
end

end Sys2Proof.Machine

namespace Sys2Proof.Machine

/-! ## The operations on intervals -/

section
variable {lo hi a b c d z : ℚ} {x y : F32}

theorem Nearest.between (h : Nearest x z) (rlo : Rep lo) (rhi : Rep hi) (hlo : lo ≤ z) (hhi : z ≤ hi) :
    Between lo hi x := ⟨h.finite, h.ge rlo hlo, h.le rhi hhi⟩

theorem between_fadd (hx : fIsFinite x = true) (hy : fIsFinite y = true) (hlo : lo ≤ fval x + fval y)
    (hhi : fval x + fval y ≤ hi) (rlo : Rep lo) (rhi : Rep hi) : Between lo hi (fadd x y) :=
  (nearest_fadd hx hy (abs_lt_top_of_between rlo rhi hlo hhi)).between rlo rhi hlo hhi

theorem between_fsub (hx : fIsFinite x = true) (hy : fIsFinite y = true) (hlo : lo ≤ fval x - fval y)
    (hhi : fval x - fval y ≤ hi) (rlo : Rep lo) (rhi : Rep hi) : Between lo hi (fsub x y) := by
  rw [sub_eq_add_neg, ← fval_fneg] at hlo hhi
  exact between_fadd hx (by rwa [fIsFinite_fneg]) hlo hhi rlo rhi

theorem between_fmul (hx : fIsFinite x = true) (hy : fIsFinite y = true) (hlo : lo ≤ fval x * fval y)
    (hhi : fval x * fval y ≤ hi) (rlo : Rep lo) (rhi : Rep hi) : Between lo hi (fmul x y) :=
  (nearest_fmul hx hy (abs_lt_top_of_between rlo rhi hlo hhi)).between rlo rhi hlo hhi

theorem between_fdiv (hx : fIsFinite x = true) (hy : fIsFinite y = true) (h0 : fval y ≠ 0) (hlo : lo ≤ fval x / fval y)
    (hhi : fval x / fval y ≤ hi) (rlo : Rep lo) (rhi : Rep hi) : Between lo hi (fdiv x y) :=
  (nearest_fdiv hx hy h0 (abs_lt_top_of_between rlo rhi hlo hhi)).between rlo rhi hlo hhi

theorem Between.fadd (hx : Between a b x) (hy : Between c d y) (hlo : lo ≤ a + c) (hhi : b + d ≤ hi)
    (rlo : Rep lo) (rhi : Rep hi) : Between lo hi (fadd x y) :=
  between_fadd hx.finite hy.finite (hlo.trans (add_le_add hx.ge hy.ge)) ((add_le_add hx.le hy.le).trans hhi) rlo rhi

theorem Between.fsub (hx : Between a b x) (hy : Between c d y) (hlo : lo ≤ a - d) (hhi : b - c ≤ hi)
    (rlo : Rep lo) (rhi : Rep hi) : Between lo hi (fsub x y) :=
  between_fsub hx.finite hy.finite (hlo.trans (sub_le_sub hx.ge hy.le)) ((sub_le_sub hx.le hy.ge).trans hhi) rlo rhi

theorem Between.fmul_nonneg (hx : Between 0 a x) (hy : Between 0 b y) (hhi : a * b ≤ hi) (rhi : Rep hi) :
    Between 0 hi (fmul x y) :=
  between_fmul hx.finite hy.finite (mul_nonneg hx.ge hy.ge)
    ((mul_le_mul hx.le hy.le hy.ge (hx.ge.trans hx.le)).trans hhi) rep_zero rhi

theorem Between.fmul_abs (hx : AbsLe a x) (hy : AbsLe b y) (hc : a * b ≤ c) (rc : Rep c) : AbsLe c (fmul x y) := by
  have h : |fval x * fval y| ≤ c := by
    rw [abs_mul]
    exact (mul_le_mul hx.abs_fval_le hy.abs_fval_le (abs_nonneg _) ((abs_nonneg _).trans hx.abs_fval_le)).trans hc
  exact between_fmul hx.finite hy.finite (abs_le.mp h).1 (abs_le.mp h).2 rc.neg rc

/-- A divisor of at least 1 takes no magnitude away from the interval. -/
theorem Between.fdiv_abs (hx : AbsLe a x) (hy : Between 1 b y) (ra : Rep a) : AbsLe a (fdiv x y) := by
  have hpos : 0 < fval y := zero_lt_one.trans_le hy.ge
  have h : |fval x / fval y| ≤ a := by
    rw [abs_div, abs_of_pos hpos]
    exact (div_le_self (abs_nonneg _) hy.ge).trans hx.abs_fval_le
  exact between_fdiv hx.finite hy.finite hpos.ne' (abs_le.mp h).1 (abs_le.mp h).2 ra.neg ra

theorem Between.fdiv_nonneg (hx : Between 0 a x) (hy : Between 1 b y) (ra : Rep a) :
    Between 0 a (fdiv x y) := by
  have hpos : 0 < fval y := zero_lt_one.trans_le hy.ge
  exact between_fdiv hx.finite hy.finite hpos.ne' (div_nonneg hx.ge hpos.le) ((div_le_self hx.ge hy.ge).trans hx.le)
    rep_zero ra

theorem Between.fabs (h : AbsLe b x) : Between 0 b (fabs x) :=
  ⟨fIsFinite_iff.mpr (by rw [fmag_fabs]; exact fIsFinite_iff.mp h.finite), by rw [fval_fabs]; exact abs_nonneg _,
    by rw [fval_fabs]; exact h.abs_fval_le⟩

theorem Between.fneg_abs (h : AbsLe b x) : AbsLe b (fneg x) :=
  ⟨by rw [fIsFinite_fneg]; exact h.finite, by rw [fval_fneg]; exact neg_le_neg h.le,
    by rw [fval_fneg]; linarith [h.ge]⟩

/-! ## The model's ranges as intervals -/

/-- A word that compares between two finite values is finite. -/
theorem between_of_fle {l u : F32} (hl : fIsFinite l = true) (hu : fIsFinite u = true) (h1 : fle l x = true)
    (h2 : fle x u = true) : Between (fval l) (fval u) x := by
  have hx : fIsFinite x = true := by
    obtain ⟨-, -, hlo⟩ := fle_iff.mp h1
    obtain ⟨-, -, hhi⟩ := fle_iff.mp h2
    rw [fIsFinite_iff] at hl hu ⊢
    rw [fkey_eq, fkey_eq] at hlo hhi
    cases hs : x.msb with
    | true =>
      rw [hs, signed_true] at hlo
      cases hls : l.msb <;> rw [hls] at hlo <;> simp only [signed_false, signed_true] at hlo <;> omega
    | false =>
      rw [hs, signed_false] at hhi
      cases hus : u.msb <;> rw [hus] at hhi <;> simp only [signed_false, signed_true] at hhi <;> omega
  exact ⟨hx, (fle_iff_fval hl hx).mp h1, (fle_iff_fval hx hu).mp h2⟩

theorem fle_of_between {l u : F32} (hl : fIsFinite l = true) (hu : fIsFinite u = true)
    (h : Between (fval l) (fval u) x) : fle l x = true ∧ fle x u = true :=
  ⟨(fle_iff_fval hl h.finite).mpr h.ge, (fle_iff_fval h.finite hu).mpr h.le⟩

theorem isSample_iff_absLe : IsSample x ↔ AbsLe 1 x := by
  have h1 : fIsFinite f1 = true := by decide
  have h1' : fIsFinite (fneg f1) = true := by decide
  have hval : fval (fneg f1) = -1 := by rw [fval_fneg, fval_f1]
  refine ⟨fun h => ?_, fun h => ?_⟩
  · have hb := between_of_fle h1' h1 h.1 h.2
    rwa [hval, fval_f1] at hb
  · exact fle_of_between h1' h1 (by rwa [hval, fval_f1])

theorem within_iff_absLe {u : F32} (hu : fIsFinite u = true) : Within u x ↔ AbsLe (fval u) x := by
  refine ⟨fun h => ?_, fun h => ?_⟩
  · have hfabs : fIsFinite (fabs x) = true :=
      fIsFinite_of_between hu (fle_iff.mpr ⟨by decide, (fle_iff.mp h).1, by
        rw [fkey_eq (fabs x), msb_fabs, signed_false]; exact Int.natCast_nonneg _⟩) h
    refine absLe_of_abs_fval_le (fIsFinite_iff.mpr (by rw [← fmag_fabs]; exact fIsFinite_iff.mp hfabs)) ?_
    rw [← fval_fabs]
    exact (fle_iff_fval hfabs hu).mp h
  · exact (fle_iff_fval h.fabs.finite hu).mpr h.fabs.le

theorem between_of_isLevel (h : IsLevel x) : Between 0 1 x := by
  have hb := between_of_fle (l := f0) (u := f1) (by decide) (by decide) h.1 h.2
  rwa [fval_f0, fval_f1] at hb

theorem between_of_isPhase (h : IsPhase x) : Between 0 1 x := between_of_isLevel ⟨h.1, fle_of_flt h.2⟩
end

theorem between_f1 : Between 1 1 f1 := ⟨by decide, fval_f1.ge, fval_f1.le⟩

theorem absLe_tanh {x : F32} (hx : fIsFinite x = true) : AbsLe 1 (tanh x) := isSample_iff_absLe.mp (isSample_tanh hx)

theorem absLe_sinT {x : F32} (h : Between 0 (5 / 4) x) : AbsLe 1 (sinT x) := by
  obtain ⟨h0, h1⟩ := fle_of_between (l := f0) (u := f1p25) (by decide) (by decide) (by rwa [fval_f0, fval_f1p25])
  exact isSample_iff_absLe.mp (isSample_sinT h0 h1)

/-! ## The quantizer -/

theorem fval_fofNat {n : Nat} (hn : n ≤ 2 ^ 24) : fIsFinite (fofNat n) = true ∧ fval (fofNat n) = n := by
  obtain ⟨hfin, hval⟩ := fofNat_exact hn
  exact ⟨hfin, fval_of_fvalue (by rw [hval]; push_cast; rfl)⟩

/-- Every value of the format is one of at most 24 bits at some power of two. -/
theorem rep_mul_two_pow {x : F32} {b : Nat} (hx : AbsLe 1 x) (hb : b ≤ 24) : Rep (fval x * 2 ^ b) := by
  obtain ⟨q, c, hm, hlo, hhi, hunits⟩ := exists_significand (fmag x)
  have hfval : fval x = c * 2 ^ q / 2 ^ 149 ∨ fval x = -(c * 2 ^ q / 2 ^ 149) := by
    rw [fval, fvalue_eq, hunits]
    cases x.msb with
    | false => left; rw [signed_false]; push_cast; rfl
    | true => right; rw [signed_true]; push_cast; rw [neg_div]
  have hq : q ≤ 149 := by
    have hmag := (isSample_iff x).mp (isSample_iff_absLe.mpr hx)
    omega
  have hrep := rep_units hhi.le (q := q + b) (by omega)
  have hscale : (c * 2 ^ q / 2 ^ 149 : ℚ) * 2 ^ b = c * 2 ^ (q + b) / 2 ^ 149 := by rw [pow_add]; ring
  obtain h | h := hfval
  · rw [h, hscale]; exact hrep
  · rw [h, neg_mul, hscale, rep_neg_iff]; exact hrep

section
variable {y : F32} {b : Nat}

/-- The scaling by 2^b is exact. -/
theorem fmul_two_pow (hy : AbsLe 1 y) (hb : b ≤ 24) :
    fIsFinite (fmul y (fofNat (2 ^ b))) = true ∧ fval (fmul y (fofNat (2 ^ b))) = fval y * 2 ^ b ∧
    (fmul y (fofNat (2 ^ b))).msb = y.msb := by
  obtain ⟨hfin, hval⟩ := fval_fofNat (Nat.pow_le_pow_right (by decide : 0 < 2) hb)
  rw [Nat.cast_pow, Nat.cast_ofNat] at hval
  have hrep := rep_mul_two_pow hy hb
  have hn := nearest_fmul hy.finite hfin (by rw [hval]; exact hrep.abs_lt_top)
  rw [hval] at hn
  refine ⟨hn.finite, hn.eq hrep, ?_⟩
  rw [fmul_msb hy.finite hfin, fofNat, msb_fpack _ (roundUnits_lt _ _), Bool.bne_false]

/-- The integer nearest to a multiple of 2^b by a magnitude at most 1 is at most 2^b. -/
theorem abs_le_of_nearest {k : Int} (hy : AbsLe 1 y) (h : 2 * |fvalue y * 2 ^ b - k * 2 ^ 149| ≤ 2 ^ 149) :
    |k| ≤ 2 ^ b := by
  have hval : |fval y * 2 ^ b| ≤ 2 ^ b := by
    rw [abs_mul, abs_of_pos (show (0 : ℚ) < 2 ^ b by positivity)]
    exact mul_le_of_le_one_left (by positivity) hy.abs_fval_le
  have hcast : 2 * |fval y * 2 ^ b - k| ≤ 1 := by
    have h' : ((2 * |fvalue y * 2 ^ b - k * 2 ^ 149| : Int) : ℚ) ≤ ((2 ^ 149 : Int) : ℚ) := Int.cast_le.mpr h
    rw [Int.cast_mul, Int.cast_abs, Int.cast_sub, Int.cast_mul, fvalue_cast, Int.cast_mul, Int.cast_pow, Int.cast_pow,
      Int.cast_ofNat, show fval y * 2 ^ 149 * 2 ^ b - (k : ℚ) * 2 ^ 149 = (fval y * 2 ^ b - k) * 2 ^ 149 by ring, abs_mul,
      abs_of_pos (show (0 : ℚ) < 2 ^ 149 by positivity)] at h'
    linarith
  have hlt : ((|k| : Int) : ℚ) < ((2 ^ b + 1 : Int) : ℚ) := by
    push_cast
    have htri := abs_sub_abs_le_abs_sub (k : ℚ) (fval y * 2 ^ b)
    rw [abs_sub_comm] at htri
    linarith
  exact Int.lt_add_one_iff.mp (Int.cast_lt.mp hlt)

/-- The integer that QUANT scales back (R510): the nearest to the scaled value, ties away from zero. -/
theorem quant_round (hy : AbsLe 1 y) (hb : b ≤ 24) : ∃ k : Int,
    fIsFinite (froundHa (fmul y (fofNat (2 ^ b)))) = true ∧ (froundHa (fmul y (fofNat (2 ^ b)))).msb = y.msb ∧
    fval (froundHa (fmul y (fofNat (2 ^ b)))) = k ∧ |k| ≤ 2 ^ b ∧
    2 * |fvalue y * 2 ^ b - k * 2 ^ 149| ≤ 2 ^ 149 ∧
    (2 * |fvalue y * 2 ^ b - k * 2 ^ 149| = 2 ^ 149 → |fvalue y * 2 ^ b| < |k * 2 ^ 149|) := by
  obtain ⟨hfin, hval, hmsb⟩ := fmul_two_pow hy hb
  obtain ⟨k, hrfin, hrmsb, hrval, hnear, htie⟩ := froundHa_nearest hfin
  have hunits : fvalue (fmul y (fofNat (2 ^ b))) = fvalue y * 2 ^ b := by
    rw [← Int.cast_inj (α := ℚ), fvalue_cast, hval, Int.cast_mul, fvalue_cast, Int.cast_pow, Int.cast_ofNat]
    ring
  rw [hunits] at hnear htie
  exact ⟨k, hrfin, hrmsb.trans hmsb, fval_of_fvalue (by rw [hrval]; push_cast; rfl), abs_le_of_nearest hy hnear, hnear,
    htie⟩

/-- An integer of at most b bits is scaled back exactly. -/
theorem fdiv_two_pow {x : F32} {k : Int} (hx : fIsFinite x = true) (hk : fval x = k) (hkb : |k| ≤ 2 ^ b) (hb : b ≤ 24) :
    AbsLe 1 (fdiv x (fofNat (2 ^ b))) ∧ fval (fdiv x (fofNat (2 ^ b))) = k / 2 ^ b ∧
    (fdiv x (fofNat (2 ^ b))).msb = x.msb := by
  obtain ⟨hfin, hval⟩ := fval_fofNat (Nat.pow_le_pow_right (by decide : 0 < 2) hb)
  rw [Nat.cast_pow, Nat.cast_ofNat] at hval
  have h2b : (0 : ℚ) < 2 ^ b := by positivity
  have hrep : Rep (k / 2 ^ b) := rep_int_div (hkb.trans (pow_le_pow_right₀ (by decide) hb)) (by omega)
  have hle : |(k : ℚ) / 2 ^ b| ≤ 1 := by
    rw [abs_div, abs_of_pos h2b, div_le_one h2b]
    exact_mod_cast hkb
  have hn := nearest_fdiv hx hfin (by rw [hval]; exact h2b.ne') (by rw [hk, hval]; exact hrep.abs_lt_top)
  rw [hk, hval] at hn
  refine ⟨absLe_of_abs_fval_le hn.finite (by rwa [hn.eq hrep]), hn.eq hrep, ?_⟩
  have h0 : fvalue (fofNat (2 ^ b)) ≠ 0 := fun h => h2b.ne' (by rw [← hval, fval, h, Int.cast_zero, zero_div])
  rw [fdiv_msb hx hfin h0, fofNat, msb_fpack _ (roundUnits_lt _ _), Bool.bne_false]

theorem absLe_quant (hy : AbsLe 1 y) (hb : b ≤ 24) : AbsLe 1 (quant y b) := by
  obtain ⟨k, hfin, -, hval, hk, -⟩ := quant_round hy hb
  exact (fdiv_two_pow hfin hval hk hb).1

/-- Words of one sign and one value are the same word. -/
theorem eq_of_msb_fval {x x' : F32} (hs : x.msb = x'.msb) (h : fval x = fval x') : x = x' := by
  have hv : fvalue x = fvalue x' := le_antisymm ((fval_le_iff _ _).mp h.le) ((fval_le_iff _ _).mp h.ge)
  have habs : (magUnits (fmag x) : Int) = magUnits (fmag x') := by rw [← abs_fvalue, ← abs_fvalue, hv]
  exact eq_of_msb_fmag hs (magUnits_strictMono.injective (Int.natCast_inj.mp habs))

theorem fvalue_mul_two_pow {x : F32} {k : Int} (h : fval x = k / 2 ^ b) : fvalue x * 2 ^ b = k * 2 ^ 149 := by
  rw [← Int.cast_inj (α := ℚ), Int.cast_mul, Int.cast_mul, fvalue_cast, h, Int.cast_pow, Int.cast_pow, Int.cast_ofNat]
  field_simp

/-- A quantized value is scaled to the integer it came from, so QUANT gives it again (R510). -/
theorem quant_quant (hy : AbsLe 1 y) (hb : b ≤ 24) : quant (quant y b) b = quant y b := by
  obtain ⟨k, hfin, hmsb, hval, hk, -⟩ := quant_round hy hb
  obtain ⟨hq, hqval, hqmsb⟩ := fdiv_two_pow hfin hval hk hb
  obtain ⟨j, hfin', hmsb', hval', -, hnear, -⟩ := quant_round (y := quant y b) hq hb
  have hunits : fvalue (quant y b) * 2 ^ b = k * 2 ^ 149 := fvalue_mul_two_pow hqval
  have hjk : j = k := by
    rw [hunits, ← sub_mul, abs_mul, abs_of_pos (show (0 : Int) < 2 ^ 149 by positivity)] at hnear
    have hlt : |k - j| < 1 := by linarith
    have h0 := Int.abs_lt_one_iff.mp hlt
    omega
  have hround : froundHa (fmul (quant y b) (fofNat (2 ^ b))) = froundHa (fmul y (fofNat (2 ^ b))) :=
    eq_of_msb_fval (hmsb'.trans hqmsb) (by rw [hval', hval, hjk])
  rw [quant, hround]
  rfl

theorem quantStage_zero {R : Regs} (h : R.quantBits = 0) : quantStage R y = y := by
  rw [quantStage, h]
  rfl
end

/-- Settles O43: the scaling by 2^b and back is exact, so QUANT rounds as `round_ha` does. -/
theorem quantizer : Obligations.Quantizer := by
  unfold Obligations.Quantizer
  intro y b hy _ hb
  have hy' : AbsLe 1 y := isSample_iff_absLe.mp hy
  obtain ⟨k, hfin, -, hval, hk, hnear, htie⟩ := quant_round hy' hb
  obtain ⟨hq, hqval, -⟩ := fdiv_two_pow hfin hval hk hb
  have hunits : fvalue (quant y b) * 2 ^ b = k * 2 ^ 149 := fvalue_mul_two_pow hqval
  exact ⟨⟨k, hunits, isSample_iff_absLe.mpr hq, hnear, htie⟩, quant_quant hy' hb, fun R hR => quantStage_zero hR⟩

end Sys2Proof.Machine

/-!
SUPPORT. The values of one sample of one slot (42_oscillator.md, 43_envelope.md, 44_filter_mix.md) as intervals: OSC_STEP
keeps the bounds of the accumulators in `OscBounded`, and its sample is in [−1, 1].
-/

namespace Sys2Proof.Machine

/-! ## Roundings that fall back on a bound -/

/-- An exact result whose magnitude is below the middle of `m * 2^q` units and the next value. -/
theorem Nearest.absLe_of_lt_middle {x : F32} {z : ℚ} (h : Nearest x z) {m q : Nat} (hlo : 2 ^ 23 ≤ m) (hhi : m < 2 ^ 24)
    (hq : q ≤ 252) (hz : |z| < (m + 1 / 2) * 2 ^ q / 2 ^ 149) : AbsLe (m * 2 ^ q / 2 ^ 149) x := by
  obtain ⟨hneg, hpos⟩ := abs_lt.mp hz
  have hge := h.neg.le_of_lt_middle hlo hhi hq (neg_lt.mp hneg)
  rw [fval_fneg] at hge
  exact ⟨h.finite, neg_le.mp hge, h.le_of_lt_middle hlo hhi hq hpos⟩

/-! ## The registers -/

/-- The high ends of the registers' ranges (10_state.md R102). -/
def fregTop : FReg → ℚ
  | .masterVolume | .voiceGain | .oscGain | .delayGain => 16
  | .velG0 | .velG1 | .velG2 | .velG3 | .velGmin | .velGmax => 16
  | .delayFeedback | .delayMix | .tremDepth | .sustain | .envFloor | .filtAFast | .filtASlow => 1
  | .vibRate | .tremRate => 1000
  | .vibDepth => 24000
  | .vibOnset => 2 ^ 24
  | .attackS | .decayS | .releaseS => 2 ^ 16
  | .dcBlock => 1 - 1 / 2 ^ 24
  | .pan => 1 / 4

theorem fval_sixteen : fval 0x41800000 = 16 :=
  (fval_of_significand 130 (2 ^ 23) (by decide) (by decide) (by decide)).trans (by norm_num)

theorem fval_thousand : fval 0x447A0000 = 1000 :=
  (fval_of_significand 135 0xFA0000 (by decide) (by decide) (by decide)).trans (by norm_num)

theorem fval_two_pow_sixteen : fval 0x47800000 = 2 ^ 16 :=
  (fval_of_significand 142 (2 ^ 23) (by decide) (by decide) (by decide)).trans (by norm_num)

theorem fval_vibDepthTop : fval 0x46BB8000 = 24000 :=
  (fval_of_significand 140 0xBB8000 (by decide) (by decide) (by decide)).trans (by norm_num)

theorem fval_vibOnsetTop : fval 0x4B800000 = 2 ^ 24 :=
  (fval_of_significand 150 (2 ^ 23) (by decide) (by decide) (by decide)).trans (by norm_num)

theorem fval_dcBlockTop : fval 0x3F7FFFFF = 1 - 1 / 2 ^ 24 :=
  (fval_of_significand 125 0xFFFFFF (by decide) (by decide) (by decide)).trans (by norm_num)

theorem fval_fregHi (r : FReg) : fval (fregHi r) = fregTop r := by
  cases r with
  | masterVolume | voiceGain | oscGain | delayGain | velG0 | velG1 | velG2 | velG3 | velGmin | velGmax =>
    exact fval_sixteen
  | delayFeedback | delayMix | tremDepth | sustain | envFloor | filtAFast | filtASlow => exact fval_f1
  | vibRate | tremRate => exact fval_thousand
  | vibDepth => exact fval_vibDepthTop
  | vibOnset => exact fval_vibOnsetTop
  | attackS | decayS | releaseS => exact fval_two_pow_sixteen
  | dcBlock => exact fval_dcBlockTop
  | pan => exact fval_fQuarter

theorem between_getF {P : Params} {R : Regs} (h : RegsLegal P R) (r : FReg) : Between 0 (fregTop r) (R.getF r) := by
  obtain ⟨hlo, hhi⟩ := fle_getF h r
  have hfin : fIsFinite (fregHi r) = true := by cases r <;> decide
  have hb := between_of_fle (by decide) hfin hlo hhi
  rwa [fval_f0, fval_fregHi] at hb

/-- The rates that a START admits, as numbers. -/
theorem between_srF {P : Params} {R : Regs} (hP : P.legal) (h : StartLegal P R) : Between 8000 (2 ^ 24) (srF R) := by
  obtain ⟨-, -, -, -, -, -, -, hsr, -⟩ := hP
  obtain ⟨hlo, hhi⟩ := h.rate
  obtain ⟨hfin, hval⟩ := fval_fofNat (n := R.sampleRate.toNat) (by omega)
  refine ⟨hfin, ?_, ?_⟩
  · rw [srF, hval]; exact_mod_cast hsr.1.trans hlo
  · rw [srF, hval]; exact_mod_cast (by omega : R.sampleRate.toNat ≤ 2 ^ 24)

/-! ## Generators -/

section
variable {dt t p duty : F32}

/-- A quotient by a positive word, from the bounds multiplied out. -/
theorem between_ratio {x : F32} {lo hi : ℚ} (hx : fIsFinite x = true) (hdt : fIsFinite dt = true) (hpos : 0 < fval dt)
    (hlo : lo * fval dt ≤ fval x) (hhi : fval x ≤ hi * fval dt) (rlo : Rep lo) (rhi : Rep hi) :
    Between lo hi (fdiv x dt) :=
  between_fdiv hx hdt hpos.ne' ((le_div_iff₀ hpos).mpr hlo) ((div_le_iff₀ hpos).mpr hhi) rlo rhi

section
variable (hdt : fIsFinite dt = true) (hpos : 0 < fval dt) (ht : Between 0 1 t)
include hdt hpos ht

/-- The kernel in its first window, `t < dt` (42_oscillator.md R355). -/
theorem absLe_firstWindow (hlt : fval t < fval dt) :
    AbsLe 2 (fsub (fsub (fadd (fdiv t dt) (fdiv t dt)) (fmul (fdiv t dt) (fdiv t dt))) f1) := by
  have hu : Between 0 1 (fdiv t dt) :=
    between_ratio ht.finite hdt hpos (by linarith [ht.ge]) (by linarith) (by simp) (by simp)
  have h2u := hu.fadd hu (lo := 0) (hi := 2) (by norm_num) (by norm_num) (by simp) (by simp)
  have husq := hu.fmul_nonneg hu (hi := 1) (by norm_num) (by simp)
  have hdiff := h2u.fsub husq (lo := -1) (hi := 2) (by norm_num) (by norm_num) (by simp) (by simp)
  exact hdiff.fsub between_f1 (by norm_num) (by norm_num) (by simp) (by simp)

/-- The kernel in its last window, `t` at least `1 − dt` (42_oscillator.md R355). -/
theorem absLe_lastWindow (hge : 1 - fval dt ≤ fval t) :
    AbsLe 2 (fadd (fadd (fadd (fmul (fdiv (fsub t f1) dt) (fdiv (fsub t f1) dt)) (fdiv (fsub t f1) dt))
      (fdiv (fsub t f1) dt)) f1) := by
  have hsub : Between (-fval dt) 0 (fsub t f1) :=
    between_fsub ht.finite between_f1.finite (by rw [fval_f1]; linarith) (by rw [fval_f1]; linarith [ht.le])
      (rep_neg_iff.mpr ⟨dt, hdt, rfl⟩) (by simp)
  have hu : Between (-1) 0 (fdiv (fsub t f1) dt) :=
    between_ratio hsub.finite hdt hpos (by linarith [hsub.ge]) (by linarith [hsub.le]) (by simp) (by simp)
  have hu' : AbsLe 1 (fdiv (fsub t f1) dt) := hu.mono le_rfl zero_le_one
  have husq := hu'.fmul_abs hu' (c := 1) (by norm_num) (by simp)
  have hsum := husq.fadd hu (lo := -2) (hi := 1) (by norm_num) (by norm_num) (by simp) (by simp)
  have hsum' := hsum.fadd hu (lo := -3) (hi := 1) (by norm_num) (by norm_num) (by simp) (by simp)
  exact hsum'.fadd between_f1 (by norm_num) (by norm_num) (by simp) (by simp)

/-- A word above the rounded `1 − dt` is not below the exact one. -/
theorem one_sub_le_of_flt (h1 : fval dt ≤ 1) (h : flt (fsub f1 dt) t = true) : 1 - fval dt ≤ fval t := by
  have hone : Nearest (fsub f1 dt) (fval f1 - fval dt) := nearest_fsub between_f1.finite hdt (by
    rw [fval_f1]
    exact abs_lt_top_of_between rep_zero rep_one (by linarith) (by linarith))
  rw [fval_f1] at hone
  rw [flt_iff_fval hone.finite ht.finite] at h
  by_contra hlt
  exact absurd (hone.ge ⟨t, ht.finite, rfl⟩ (not_le.mp hlt).le) (not_le.mpr h)
end

/-- The kernel is at most 2 in magnitude; the bound 1 that R356 derives is not needed. -/
theorem absLe_polyBlep (hdt : Between 0 (1 / 2) dt) (ht : Between 0 1 t) : AbsLe 2 (polyBlep dt t) := by
  have hzero : AbsLe 2 f0 := ⟨by decide, by rw [fval_f0]; norm_num, by rw [fval_f0]; norm_num⟩
  unfold polyBlep
  split
  case isTrue => exact hzero
  case isFalse hz =>
  have hpos : 0 < fval dt := by
    rw [fle_iff_fval hdt.finite (by decide), fval_f0] at hz
    exact not_le.mp hz
  split
  case isTrue hlt => exact absLe_firstWindow hdt.finite hpos ht ((flt_iff_fval ht.finite hdt.finite).mp hlt)
  case isFalse =>
  split
  case isTrue hgt =>
    exact absLe_lastWindow hdt.finite hpos ht (one_sub_le_of_flt hdt.finite hpos ht (by linarith [hdt.le]) hgt)
  case isFalse => exact hzero

theorem absLe_rawSquare (p duty : F32) : AbsLe 1 (rawSquare p duty) := by
  unfold rawSquare
  split
  · exact between_f1.mono (by norm_num) le_rfl
  · exact (between_f1.mono (by norm_num) le_rfl : AbsLe 1 f1).fneg_abs

/-- The second argument of the band-limited square stays in [0, 1] (42_oscillator.md R357). -/
theorem between_wrapped (hp : Between 0 1 p) (hduty : Between 0 1 duty) :
    Between 0 1 (if flt (fsub p duty) f0 then fadd (fsub p duty) f1 else fsub p duty) := by
  have hsub := hp.fsub hduty (lo := -1) (hi := 1) (by norm_num) (by norm_num) (by simp) (by simp)
  split
  case isTrue hneg =>
    rw [flt_iff_fval hsub.finite (by decide), fval_f0] at hneg
    exact between_fadd hsub.finite between_f1.finite (by rw [fval_f1]; linarith [hsub.ge]) (by rw [fval_f1]; linarith)
      (by simp) (by simp)
  case isFalse hneg =>
    rw [flt_iff_fval hsub.finite (by decide), fval_f0] at hneg
    exact ⟨hsub.finite, not_lt.mp hneg, hsub.le⟩

theorem absLe_polySquare (hdt : Between 0 (1 / 2) dt) (hp : Between 0 1 p) (hduty : Between 0 1 duty) :
    AbsLe 5 (polySquare dt p duty) := by
  have hsum := (absLe_rawSquare p duty).fadd (absLe_polyBlep hdt hp) (lo := -3) (hi := 3) (by norm_num) (by norm_num)
    (by simp) (by simp)
  exact hsum.fsub (absLe_polyBlep hdt (between_wrapped hp hduty)) (by norm_num) (by norm_num) (by simp) (by simp)

theorem between_f2 : Between 0 2 f2 := by
  have hval : fval f2 = 2 := (fval_of_significand 127 (2 ^ 23) (by decide) (by decide) (by decide)).trans (by norm_num)
  exact ⟨by decide, by rw [hval]; norm_num, hval.le⟩

theorem absLe_rawSaw (hp : Between 0 1 p) : AbsLe 1 (rawSaw p) :=
  (between_f2.fmul_nonneg hp (hi := 2) (by norm_num) (by simp)).fsub between_f1
    (by norm_num) (by norm_num) (by simp) (by simp)
end

/-! ## The accumulators of a slot -/

/-- The bounds of `OscBounded` as intervals; below 2^53 means at most the largest value of the format below it. -/
structure OscBetween (o : Osc) : Prop where
  elapsed : Between 0 4096 o.elapsed
  integ : AbsLe (6 * 2 ^ 24) o.integ
  dcX : AbsLe (6 * 2 ^ 24) o.dcX
  dcY : AbsLe (2 ^ 53 - 2 ^ 29) o.dcY
  fFast : AbsLe (2 ^ 62) o.fFast
  fSlow : AbsLe (2 ^ 62) o.fSlow

theorem fval_integTop : fval 0x4CC00000 = 6 * 2 ^ 24 :=
  (fval_of_significand 152 0xC00000 (by decide) (by decide) (by decide)).trans (by norm_num)

theorem fval_dcTop : fval 0x5A000000 = 2 ^ 53 :=
  (fval_of_significand 179 (2 ^ 23) (by decide) (by decide) (by decide)).trans (by norm_num)

theorem fval_filterTop : fval 0x5E800000 = 2 ^ 62 :=
  (fval_of_significand 188 (2 ^ 23) (by decide) (by decide) (by decide)).trans (by norm_num)

theorem fval_elapsedTop : fval 0x45800000 = 4096 :=
  (fval_of_significand 138 (2 ^ 23) (by decide) (by decide) (by decide)).trans (by norm_num)

/-- The value of the format below 2^53. -/
theorem dcY_iff (x : F32) : flt (fabs x) 0x5A000000 = true ↔ AbsLe (2 ^ 53 - 2 ^ 29) x := by
  have htop : fIsFinite 0x5A000000 = true := by decide
  refine ⟨fun h => ?_, fun h => ?_⟩
  · have hle := (within_iff_absLe htop).mp (fle_of_flt h)
    rw [flt_iff_fval hle.fabs.finite htop, fval_dcTop, fval_fabs] at h
    have hbelow := fval_le_of_lt_succ (x := fabs x) (m := 2 ^ 24 - 1) (q := 178) (by decide) (by decide)
      (by rw [fval_fabs]; exact h.trans_eq (by norm_num))
    rw [fval_fabs] at hbelow
    exact absLe_of_abs_fval_le hle.finite (hbelow.trans_eq (by norm_num))
  · rw [flt_iff_fval h.fabs.finite htop, fval_dcTop]
    exact h.fabs.le.trans_lt (by norm_num)

theorem oscBounded_iff (o : Osc) : OscBounded o ↔ OscBetween o := by
  have hinteg (x : F32) : Within 0x4CC00000 x ↔ AbsLe (6 * 2 ^ 24) x := by
    rw [within_iff_absLe (by decide), fval_integTop]
  have hfilter (x : F32) : Within 0x5E800000 x ↔ AbsLe (2 ^ 62) x := by
    rw [within_iff_absLe (by decide), fval_filterTop]
  refine ⟨fun h => ⟨?_, (hinteg _).mp h.integ, (hinteg _).mp h.dcX, (dcY_iff _).mp h.dcY, (hfilter _).mp h.fFast,
      (hfilter _).mp h.fSlow⟩,
    fun h => ⟨?_, (hinteg _).mpr h.integ, (hinteg _).mpr h.dcX, (dcY_iff _).mpr h.dcY, (hfilter _).mpr h.fFast,
      (hfilter _).mpr h.fSlow⟩⟩
  · have hb := between_of_fle (l := f0) (by decide) (by decide) h.elapsed.1 h.elapsed.2
    rwa [fval_f0, fval_elapsedTop] at hb
  · exact fle_of_between (l := f0) (by decide) (by decide) (by rw [fval_f0, fval_elapsedTop]; exact h.elapsed)

theorem rep_dcTop : Rep (2 ^ 53 - 2 ^ 29) := rep_below_two_pow (k := 29) (by decide)

theorem rep_filterTop : Rep (2 ^ 62) := rep_two_pow (by decide)

theorem rep_integDiff : Rep (12 * 2 ^ 24) := rep_nat_mul (m := 12) (by decide) (k := 24) (by decide)

/-! ## The leaky integral and the DC blocker (42_oscillator.md R360) -/

section
variable {P : Params} {R : Regs} (hR : RegsLegal P R) {x y dt sq : F32}
include hR

theorem between_dcBlock : Between 0 (1 - 1 / 2 ^ 24) R.dcBlock := between_getF hR .dcBlock

/-- The leak of a bound `b`, from the middle that the exact product is below. -/
theorem absLe_leak {b : ℚ} (hx : AbsLe b x) {m q : Nat} (hlo : 2 ^ 23 ≤ m) (hhi : m < 2 ^ 24) (hq : q ≤ 252)
    (hb : (1 - 1 / 2 ^ 24) * b ≤ 2 ^ 100) (hz : (1 - 1 / 2 ^ 24) * b < (m + 1 / 2) * 2 ^ q / 2 ^ 149) :
    AbsLe (m * 2 ^ q / 2 ^ 149) (fmul R.dcBlock x) := by
  have hd := between_dcBlock hR
  have hprod : |fval R.dcBlock * fval x| ≤ (1 - 1 / 2 ^ 24) * b := by
    rw [abs_mul, abs_of_nonneg hd.ge]
    exact mul_le_mul hd.le hx.abs_fval_le (abs_nonneg _) (hd.ge.trans hd.le)
  exact (nearest_fmul hd.finite hx.finite (lt_fTop (hprod.trans hb))).absLe_of_lt_middle hlo hhi hq (hprod.trans_lt hz)

/-- The leak takes at least one unit of the last place off an integral at its bound (R390). -/
theorem absLe_leak_integ (hx : AbsLe (6 * 2 ^ 24) x) : AbsLe (6 * 2 ^ 24 - 8) (fmul R.dcBlock x) :=
  (absLe_leak hR hx (m := 12582911) (q := 152) (by decide) (by decide) (by decide) (by norm_num) (by norm_num)).mono
    (by norm_num) (by norm_num)

theorem absLe_leak_dcY (hy : AbsLe (2 ^ 53 - 2 ^ 29) y) : AbsLe (2 ^ 53 - 2 ^ 30) (fmul R.dcBlock y) :=
  (absLe_leak hR hy (m := 2 ^ 24 - 2) (q := 178) (by decide) (by decide) (by decide) (by norm_num) (by norm_num)).mono
    (by norm_num) (by norm_num)

theorem absLe_integ (hx : AbsLe (6 * 2 ^ 24) x) (hdt : Between 0 (1 / 2) dt) (hsq : AbsLe 5 sq) :
    AbsLe (6 * 2 ^ 24) (fadd (fmul R.dcBlock x) (fmul (fmul f4 dt) sq)) := by
  have h4 : Between 0 4 f4 := by
    have hval : fval f4 = 4 := (fval_of_significand 128 (2 ^ 23) (by decide) (by decide) (by decide)).trans (by norm_num)
    exact ⟨by decide, by rw [hval]; norm_num, hval.le⟩
  have hleak := absLe_leak_integ hR hx
  have hin := (h4.fmul_nonneg hdt (hi := 2) (by norm_num) (by simp)).absLe.fmul_abs hsq (c := 10) (by norm_num) (by simp)
  have hz : |fval (fmul R.dcBlock x) + fval (fmul (fmul f4 dt) sq)| ≤ 6 * 2 ^ 24 - 8 + 10 :=
    (abs_add_le _ _).trans (add_le_add hleak.abs_fval_le hin.abs_fval_le)
  have hn := nearest_fadd hleak.finite hin.finite (lt_fTop (hz.trans (by norm_num)))
  have hb := hn.absLe_of_lt_middle (m := 12582912) (q := 152) (by decide) (by decide) (by decide)
    (hz.trans_lt (by norm_num))
  exact hb.mono (by norm_num) (by norm_num)

theorem absLe_dcY {integ dcX : F32} (hi : AbsLe (6 * 2 ^ 24) integ) (hx : AbsLe (6 * 2 ^ 24) dcX)
    (hy : AbsLe (2 ^ 53 - 2 ^ 29) y) : AbsLe (2 ^ 53 - 2 ^ 29) (fadd (fsub integ dcX) (fmul R.dcBlock y)) := by
  have hdiff := hi.fsub hx (lo := -(12 * 2 ^ 24)) (hi := 12 * 2 ^ 24) (by norm_num) (by norm_num)
    (rep_neg_iff.mpr rep_integDiff) rep_integDiff
  exact hdiff.fadd (absLe_leak_dcY hR hy) (by norm_num) (by norm_num) rep_dcTop.neg rep_dcTop
end

/-! ## A generator's sample -/

theorem rep_rawTop : Rep (2 ^ 61 - 2 ^ 37) := rep_below_two_pow (k := 37) (by decide)

section
variable {amp dt : F32} {o : Osc}

/-- An amplitude times a generator's value. -/
theorem absLe_raw (hamp : Between 0 256 amp) {b : ℚ} {g : F32} (hg : AbsLe b g) (hb : b ≤ 2 ^ 53 - 2 ^ 29) :
    AbsLe (2 ^ 61 - 2 ^ 37) (fmul amp g) :=
  hamp.absLe.fmul_abs (hg.mono (neg_le_neg hb) hb) (by norm_num) rep_rawTop

theorem absLe_rawTriangle {p : F32} (hp : Between 0 1 p) : AbsLe 3 (rawTriangle p) := by
  have hhalf : Between (1 / 2) (1 / 2) fHalf := ⟨by decide, fval_fHalf.ge, fval_fHalf.le⟩
  have hsub := hp.fsub hhalf (lo := -1) (hi := 1) (by norm_num) (by norm_num) (by simp) (by simp)
  have hfold := between_f2.absLe.fmul_abs hsub (c := 2) (by norm_num) (by simp)
  exact (between_f2.fmul_nonneg hfold.fabs (hi := 4) (by norm_num) (by simp)).fsub between_f1
    (by norm_num) (by norm_num) (by simp) (by simp)

variable {P : Params} {R : Regs} (hR : RegsLegal P R) (hamp : Between 0 256 amp) (hdt : Between 0 (1 / 2) dt)
  (ho : OscBetween o) (hphase : Between 0 1 o.phase) (hduty : Between 0 1 o.duty)
include hR hamp hdt ho hphase hduty

/-- GEN keeps a slot's accumulators within their bounds and its sample below 2^61 (R390). -/
theorem generate_between : AbsLe (2 ^ 61 - 2 ^ 37) (generate R amp dt o).1 ∧ OscBetween (generate R amp dt o).2 := by
  have hhalf : Between 0 1 fHalf := ⟨by decide, by rw [fval_fHalf]; norm_num, by rw [fval_fHalf]; norm_num⟩
  cases hw : o.wave with
  | sine =>
    rw [generate, hw]
    exact ⟨absLe_raw hamp (absLe_sinT (hphase.mono le_rfl (by norm_num))) (by norm_num), ho⟩
  | pulseRaw =>
    rw [generate, hw]
    exact ⟨absLe_raw hamp (absLe_rawSquare _ _) (by norm_num), ho⟩
  | sawRaw =>
    rw [generate, hw]
    exact ⟨absLe_raw hamp (absLe_rawSaw hphase) (by norm_num), ho⟩
  | triangleRaw =>
    rw [generate, hw]
    exact ⟨absLe_raw hamp (absLe_rawTriangle hphase) (by norm_num), ho⟩
  | pulsePoly =>
    rw [generate, hw]
    exact ⟨absLe_raw hamp (absLe_polySquare hdt hphase hduty) (by norm_num), ho⟩
  | sawPoly =>
    rw [generate, hw]
    have hsaw := (absLe_rawSaw hphase).fsub (absLe_polyBlep hdt hphase) (lo := -3) (hi := 3) (by norm_num) (by norm_num)
      (by simp) (by simp)
    exact ⟨absLe_raw hamp hsaw (by norm_num), ho⟩
  | trianglePoly =>
    rw [generate, hw]
    have hinteg := absLe_integ hR ho.integ hdt (absLe_polySquare hdt hphase hhalf)
    have hdcY := absLe_dcY hR hinteg ho.dcX ho.dcY
    exact ⟨absLe_raw hamp hdcY le_rfl, { ho with integ := hinteg, dcX := hinteg, dcY := hdcY }⟩
end

/-! ## Envelope, tremolo and filter -/

theorem between_ffrac {x : F32} (hx : fIsFinite x = true) (h0 : 0 ≤ fval x) : Between 0 1 (ffrac x) := by
  have hunits : 0 ≤ fvalue x := by
    have h := (fval_le_iff f0 x).mp (by rwa [fval_f0])
    rwa [fvalue_f0] at h
  obtain ⟨hfin, hval⟩ := ffrac_exact hx hunits
  have hfloor := (ffloor_exact hx).2
  have hone := fvalue_f1
  refine ⟨hfin, ?_, ?_⟩
  · rw [← fval_f0, fval_le_iff, fvalue_f0]
    omega
  · rw [← fval_f1, fval_le_iff]
    omega

/-- The length of a stage is at least 1 (43_envelope.md R420). -/
theorem between_stageSamples {P : Params} {R : Regs} (hP : P.legal) (hS : StartLegal P R)
    {x : F32} (hx : Between 0 (2 ^ 16) x) :
    Between 1 (2 ^ 40) (stageSamples R x) := by
  have hrate := (between_srF hP hS).mono (lo := 0) (by norm_num) le_rfl
  have hprod := hx.fmul_nonneg hrate (hi := 2 ^ 40) (by norm_num) (rep_two_pow (by decide))
  unfold stageSamples fmax
  split
  case isTrue h =>
    rw [fle_iff_fval (by decide) hprod.finite, fval_f1] at h
    exact ⟨hprod.finite, h, hprod.le⟩
  case isFalse => exact between_f1.mono le_rfl (by norm_num)

section
variable {P : Params} {R : Regs} (hR : RegsLegal P R)
include hR

/-- TREM is in [0, 2] (42_oscillator.md R375, R390). -/
theorem absLe_tremolo {t : F32} (ht : Between 0 4096 t) : AbsLe 2 (tremolo R t) := by
  have hrateReg : Between 0 1000 R.tremRate := between_getF hR .tremRate
  have hdepthReg : Between 0 1 R.tremDepth := between_getF hR .tremDepth
  have hrate := hrateReg.fmul_nonneg ht (hi := 4096000) (by norm_num) (by simp)
  have hsin := absLe_sinT ((between_ffrac hrate.finite hrate.ge).mono le_rfl (by norm_num))
  have hdepth := hdepthReg.absLe.fmul_abs hsin (c := 1) (by norm_num) (by simp)
  exact between_f1.fadd hdepth (by norm_num) (by norm_num) (by simp) (by simp)

/-- ENV_STEP keeps the envelope value in [−1, 1]. -/
theorem absLe_envStep (hP : P.legal) (hS : StartLegal P R) (st : EnvState) {x : F32} (hx : Between 0 1 x) :
    AbsLe 1 (envStep R st x).2 := by
  have hattack : Between 0 (2 ^ 16) R.attackS := between_getF hR .attackS
  have hdecay : Between 0 (2 ^ 16) R.decayS := between_getF hR .decayS
  have hrelease : Between 0 (2 ^ 16) R.releaseS := between_getF hR .releaseS
  have hunit : Between 0 1 f1 := between_f1.mono (by norm_num) le_rfl
  have hzero : AbsLe 1 f0 := ⟨by decide, by rw [fval_f0]; norm_num, by rw [fval_f0]; norm_num⟩
  have hsustain : Between 0 1 R.sustain := between_getF hR .sustain
  cases st with
  | attack =>
    have hinc := hunit.fdiv_nonneg (between_stageSamples hP hS hattack) (by simp)
    have hsum := hx.fadd hinc (lo := 0) (hi := 2) (by norm_num) (by norm_num) (by simp) (by simp)
    simp only [envStep]
    split
    case isTrue => exact hunit.absLe
    case isFalse h =>
      rw [fle_iff_fval (by decide) hsum.finite, fval_f1] at h
      exact ⟨hsum.finite, by linarith [hsum.ge], (not_le.mp h).le⟩
  | decay =>
    have hfall := between_f1.fsub hsustain (lo := 0) (hi := 1) (by norm_num) (by norm_num) (by simp) (by simp)
    have hdec := hfall.fdiv_nonneg (between_stageSamples hP hS hdecay) (by simp)
    simp only [envStep]
    split
    case isTrue => exact hsustain.absLe
    case isFalse => exact hx.fsub hdec (by norm_num) (by norm_num) (by simp) (by simp)
  | sustain => exact hx.absLe
  | release =>
    have hdec := hx.fdiv_nonneg (between_stageSamples hP hS hrelease) (by simp)
    simp only [envStep]
    split
    case isTrue => exact hzero
    case isFalse => exact hx.fsub hdec (by norm_num) (by norm_num) (by simp) (by simp)
  | off => exact hzero
end

/-- The greatest sample that a filter sees: the greatest raw sample doubled by the tremolo (R390). -/
theorem rep_sampleTop : Rep (2 ^ 62 - 2 ^ 38) := rep_below_two_pow (k := 38) (by decide)

/-- A filter state moves towards the sample by at most their rounded difference, so it stays within its bound
(44_filter_mix.md R460, R490). -/
theorem absLe_lerp {c x α : F32} (hc : AbsLe (2 ^ 62) c) (hx : AbsLe (2 ^ 62 - 2 ^ 38) x) (hα : Between 0 1 α) :
    AbsLe (2 ^ 62) (fadd c (lerpDelta x c α)) := by
  have hz : |fval x - fval c| ≤ 2 ^ 63 := by
    refine (abs_sub _ _).trans ?_
    linarith [hx.abs_fval_le, hc.abs_fval_le]
  have hn := nearest_fsub hx.finite hc.finite (lt_fTop (hz.trans (by norm_num)))
  have herr := abs_le.mp (hn.abs_sub_le (k := 39) (by decide) (hz.trans (by norm_num)))
  have hd : Rep (fval (fsub x c)) := ⟨_, hn.finite, rfl⟩
  unfold lerpDelta
  rcases le_total (fval c) (fval x) with hle | hle
  · have h0 := hn.ge rep_zero (sub_nonneg.mpr hle)
    have hstep : Between 0 (fval (fsub x c)) (fmul (fsub x c) α) :=
      between_fmul hn.finite hα.finite (mul_nonneg h0 hα.ge) (mul_le_of_le_one_right h0 hα.le) rep_zero hd
    exact between_fadd hc.finite hstep.finite (by linarith [hc.ge, hstep.ge]) (by linarith [hstep.le, hx.le, herr.2])
      rep_filterTop.neg rep_filterTop
  · have h0 := hn.le rep_zero (sub_nonpos.mpr hle)
    have hstep : Between (fval (fsub x c)) 0 (fmul (fsub x c) α) :=
      between_fmul hn.finite hα.finite (le_mul_of_le_one_right h0 hα.le) (mul_nonpos_of_nonpos_of_nonneg h0 hα.ge) hd
        rep_zero
    exact between_fadd hc.finite hstep.finite (by linarith [hstep.ge, hx.ge, herr.1]) (by linarith [hc.le, hstep.le])
      rep_filterTop.neg rep_filterTop

/-- SHAPE's sample is in [−1, 1], and the filter states stay within their bound (44_filter_mix.md R463). -/
theorem shape_between {P : Params} {R : Regs} (hR : RegsLegal P R) {o : Osc} (ho : OscBetween o) {x : F32}
    (hx : AbsLe (2 ^ 62 - 2 ^ 38) x) : AbsLe 1 (shape R o x).1 ∧ OscBetween (shape R o x).2 := by
  have hrep : Rep (2 ^ 63) := rep_two_pow (by decide)
  unfold shape
  split
  case isTrue =>
    have hfast := absLe_lerp ho.fFast hx (between_getF hR .filtAFast)
    have hslow := absLe_lerp ho.fSlow hx (between_getF hR .filtASlow)
    have hdiff := hfast.fsub hslow (lo := -2 ^ 63) (hi := 2 ^ 63) (by norm_num) (by norm_num) hrep.neg hrep
    exact ⟨absLe_tanh hdiff.finite, { ho with fFast := hfast, fSlow := hslow }⟩
  case isFalse => exact ⟨absLe_tanh hx.finite, ho⟩

/-! ## OSC_STEP -/

/-- `elapsed` stops growing at 2^12: an increment of 1/8000 s is less than half a unit of the last place there
(42_oscillator.md R388). -/
theorem between_elapsed {P : Params} {R : Regs} (hP : P.legal) (hS : StartLegal P R) {t : F32} (ht : Between 0 4096 t) :
    Between 0 4096 (fadd t (invSr R)) := by
  have hsr := between_srF hP hS
  have hpos : 0 < fval (srF R) := lt_of_lt_of_le (by norm_num) hsr.ge
  have hinc : Between 0 (3 / 2 ^ 14) (invSr R) := by
    refine between_ratio between_f1.finite hsr.finite hpos ?_ ?_ rep_zero (rep_nat_div (m := 3) (by decide) (by decide))
    · rw [fval_f1]; linarith
    · rw [fval_f1]; linarith [hsr.ge]
  have hn := nearest_fadd ht.finite hinc.finite
    (abs_lt_top_of_between (lo := 0) (hi := 4097) rep_zero (by simp) (by linarith [ht.ge, hinc.ge])
      (by linarith [ht.le, hinc.le]))
  have hle := hn.le_of_lt_middle (m := 2 ^ 23) (q := 138) (by decide) (by decide) (by decide)
    (by linarith [ht.le, hinc.le])
  exact ⟨hn.finite, hn.ge rep_zero (by linarith [ht.ge, hinc.ge]), hle.trans (by norm_num)⟩

/-- The increment is in [0, 0.5] whatever the frequency (42_oscillator.md R382). -/
theorem between_phaseIncrement (R : Regs) (f : F32) : Between 0 (1 / 2) (phaseIncrement R f) := by
  obtain ⟨hlo, hhi⟩ := fclamp_between (x := fdiv f (srF R)) (lo := f0) (hi := fHalf) (a := f0) (c := fHalf)
    (by decide) (by decide)
  have hb := between_of_fle (by decide) (by decide) hlo hhi
  rwa [fval_f0, fval_fHalf] at hb

/-- OSC_STEP by its parts: the sample, and the slot after GEN and SHAPE with the fields of its own advance. -/
theorem oscStep_eq (R : Regs) (base : F32) (o : Osc) : oscStep R base o =
    let v := vibrato R (carrier base o) o
    let dt := phaseIncrement R v.1
    let g := generate R (fmul o.vol R.oscGain) dt o
    let e := envStep R o.envState o.envValue
    let y := shape R g.2 (fmul (fmul g.1 e.2) (tremolo R o.elapsed))
    (y.1, { y.2 with
      lfoPhase := v.2
      envState := e.1
      envValue := e.2
      phase := phaseAdvance o.phase dt
      elapsed := fadd o.elapsed (invSr R) }) := rfl

/-- A slot with legal settings, its phase in [0, 1) and its envelope in [0, 1] gives a sample in [−1, 1] and keeps its
accumulators within their bounds (R390, 44_filter_mix.md R490). -/
theorem oscStep_between {P : Params} {R : Regs} (hP : P.legal) (hR : RegsLegal P R) (hS : StartLegal P R) (base : F32)
    {o : Osc} (ho : OscBetween o) (hspec : SpecLegal o.settings) (hphase : Between 0 1 o.phase)
    (henv : Between 0 1 o.envValue) : AbsLe 1 (oscStep R base o).1 ∧ OscBetween (oscStep R base o).2 := by
  have hvol : Between 0 16 o.vol := by
    obtain ⟨h0, h1⟩ := fle_of_inRange (pfieldRange_proper .vol) (hspec .vol)
    have hb := between_of_fle (by decide) (by decide) h0 h1
    rwa [show fval (pfieldLo .vol) = 0 from fval_f0, show fval (pfieldHi .vol) = 16 from fval_sixteen] at hb
  have hduty : Between 0 1 o.duty := by
    obtain ⟨h0, h1⟩ := fle_of_inRange (pfieldRange_proper .duty) (hspec .duty)
    exact between_of_isLevel ⟨h0, h1⟩
  have hgain : Between 0 16 R.oscGain := between_getF hR .oscGain
  have hamp := hvol.fmul_nonneg hgain (hi := 256) (by norm_num) (by simp)
  obtain ⟨hraw, hgen⟩ :=
    generate_between hR hamp (between_phaseIncrement R (vibrato R (carrier base o) o).1) ho hphase hduty
  have hx := (hraw.fmul_abs (absLe_envStep hR hP hS o.envState henv) (c := 2 ^ 61 - 2 ^ 37) (by norm_num)
    rep_rawTop).fmul_abs (absLe_tremolo hR ho.elapsed) (c := 2 ^ 62 - 2 ^ 38) (by norm_num) rep_sampleTop
  obtain ⟨hy, hshape⟩ := shape_between hR hgen hx
  rw [oscStep_eq]
  exact ⟨hy, { hshape with elapsed := between_elapsed hP hS ho.elapsed }⟩

end Sys2Proof.Machine

/-!
SUPPORT. The mix of a frame, the output stage and every step (44_filter_mix.md R472-R490, 45_delay_output.md R501-R530):
the bounds in `Bounded` are kept, and every emitted word is in [−1, 1].
-/

namespace Sys2Proof.Machine

/-! ## Layers and voices -/

/-- The slots that a sounding voice advances have their phases and envelope values in [0, 1]. -/
theorem tuned_take {v : Voice} (hcount : v.count ≤ v.oscs.length) (ht : VoiceTuned v) :
    ∀ o ∈ v.oscs.take v.count, Between 0 1 o.phase ∧ Between 0 1 o.envValue := by
  intro o ho
  obtain ⟨i, hi, rfl⟩ := List.mem_take_iff_getElem.mp ho
  have hslot : v.osc i = v.oscs[i] := List.getD_eq_getElem _ _ (by omega)
  obtain ⟨hphase, -, hlevel, -⟩ := ht i (by omega)
  rw [hslot] at hphase hlevel
  exact ⟨between_of_isPhase hphase, between_of_isLevel hlevel⟩

/-- A share of 16 among VOICE_MAX voices, from a multiple of 2^-10 that is not below it (44_filter_mix.md R473). -/
theorem absLe_share {P : Params} (hP : P.legal) {x : F32} (hx : AbsLe 16 x) {c : Nat}
    (hc : 2 ^ 14 ≤ c * P.voiceMax) (hc' : c ≤ 2 ^ 24) :
    AbsLe (c / 2 ^ 10) (fdiv x (fofNat P.voiceMax)) := by
  obtain ⟨hvoices, -⟩ := id hP
  obtain ⟨hfin, hval⟩ := fval_fofNat (n := P.voiceMax) (by omega)
  have hpos : (0 : ℚ) < P.voiceMax := by exact_mod_cast hvoices.1
  have hquot : |fval x / fval (fofNat P.voiceMax)| ≤ c / 2 ^ 10 := by
    have hc2 : ((2 ^ 14 : Nat) : ℚ) ≤ (c * P.voiceMax : Nat) := Nat.cast_le.mpr hc
    push_cast at hc2
    rw [hval, abs_div, abs_of_pos hpos, div_le_iff₀ hpos, div_mul_eq_mul_div, le_div_iff₀ (by positivity)]
    linarith [hx.abs_fval_le]
  exact between_fdiv hx.finite hfin (by rw [hval]; exact hpos.ne') (abs_le.mp hquot).1 (abs_le.mp hquot).2
    (rep_nat_div hc' (by decide)).neg (rep_nat_div hc' (by decide))

section
variable {P : Params} {R : Regs} (hP : P.legal) (hR : RegsLegal P R) (hS : StartLegal P R)
include hP hR hS

/-- A layer sum grows by at most 1 a slot, and the slots that it advances keep their bounds (44_filter_mix.md R472). -/
theorem layerSum_between (base : F32) {fcount : F32} {b : ℚ} (hf : Between 1 b fcount) (n : Nat) {os : List Osc}
    {m : Nat} {acc : F32} (hmn : m + n ≤ 2 ^ 24) (hacc : AbsLe m acc) (hspec : ∀ o ∈ os, SpecLegal o.settings)
    (hos : ∀ o ∈ os, OscBetween o) (htuned : ∀ o ∈ os.take n, Between 0 1 o.phase ∧ Between 0 1 o.envValue) :
    AbsLe (m + n : Nat) (layerSum R base fcount n os acc).1 ∧
      ∀ o ∈ (layerSum R base fcount n os acc).2, OscBetween o := by
  induction n generalizing os m acc with
  | zero => exact ⟨hacc, hos⟩
  | succ n ih =>
    cases os with
    | nil =>
      have hle : (m : ℚ) ≤ (m + (n + 1) : Nat) := Nat.cast_le.mpr (Nat.le_add_right _ _)
      exact ⟨hacc.mono (neg_le_neg hle) hle, hos⟩
    | cons o os =>
      rw [List.take_succ_cons] at htuned
      obtain ⟨hphase, henv⟩ := htuned o List.mem_cons_self
      obtain ⟨hy, ho⟩ :=
        oscStep_between hP hR hS base (hos o List.mem_cons_self) (hspec o List.mem_cons_self) hphase henv
      have hrep : Rep ((m + 1 : Nat) : ℚ) := rep_nat (by omega)
      have hsum : AbsLe ((m + 1 : Nat) : ℚ) (fadd acc (fdiv (oscStep R base o).1 fcount)) :=
        hacc.fadd (hy.fdiv_abs hf (by simp)) (by push_cast; linarith) (by push_cast; exact le_rfl) hrep.neg hrep
      obtain ⟨hlayer, hrest⟩ := ih (by omega) hsum (fun o' ho' => hspec o' (List.mem_cons_of_mem _ ho'))
        (fun o' ho' => hos o' (List.mem_cons_of_mem _ ho')) (fun o' ho' => htuned o' (List.mem_cons_of_mem _ ho'))
      refine ⟨by rwa [show m + (n + 1) = m + 1 + n by omega], ?_⟩
      rw [layerSum_succ]
      exact List.forall_mem_cons.mpr ⟨ho, hrest⟩

/-- A voice's layer sum is at most its number of slots. -/
theorem voiceLayer_between {v : Voice} (hv : VoiceLegal P v) (ht : VoiceTuned v) (hb : ∀ o ∈ v.oscs, OscBetween o) :
    AbsLe 8 (layerSum R v.baseFreq (fofNat v.count) v.count v.oscs f0).1 ∧
      ∀ o ∈ (layerSum R v.baseFreq (fofNat v.count) v.count v.oscs f0).2, OscBetween o := by
  obtain ⟨-, hosc, -⟩ := id hP
  obtain ⟨hcount, hcount'⟩ := hv.count
  obtain ⟨hfin, hval⟩ := fval_fofNat (n := v.count) (by omega)
  have hf : Between 1 8 (fofNat v.count) :=
    ⟨hfin, by rw [hval]; exact_mod_cast hcount, by rw [hval]; exact_mod_cast (by omega : v.count ≤ 8)⟩
  have hzero : AbsLe ((0 : Nat) : ℚ) f0 := ⟨by decide, by rw [fval_f0]; simp, by rw [fval_f0]; simp⟩
  have hle : ((0 + v.count : Nat) : ℚ) ≤ 8 := by exact_mod_cast (by omega : 0 + v.count ≤ 8)
  obtain ⟨hlayer, hoscs⟩ := layerSum_between hP hR hS v.baseFreq hf v.count (by omega) hzero
    (fun o ho => (specLegal_settings_iff o).mpr (hv.specs o ho)) hb (tuned_take (hcount'.trans hv.oscs.ge) ht)
  exact ⟨hlayer.mono (neg_le_neg hle) hle, hoscs⟩

/-- A voice contributes at most 16 / VOICE_MAX, rounded up to `c` units of 2^-10 (44_filter_mix.md R473, R490). -/
theorem voiceStep_between {v : Voice} (hv : VoiceLegal P v) (ht : VoiceTuned v) (hb : ∀ o ∈ v.oscs, OscBetween o)
    {c : Nat} (hc : 2 ^ 14 ≤ c * P.voiceMax) (hc' : c ≤ 2 ^ 24) :
    AbsLe (c / 2 ^ 10) (voiceStep P R v).1 ∧ ∀ o ∈ (voiceStep P R v).2.oscs, OscBetween o := by
  obtain ⟨hlayer, hoscs⟩ := voiceLayer_between hP hR hS hv ht hb
  have hamplitude : Between 0 16 v.amplitude := by
    have h := between_of_fle (by decide) (by decide) hv.amplitude.1 hv.amplitude.2
    rwa [fval_f0, fval_sixteen] at h
  have hgain : Between 0 16 R.voiceGain := between_getF hR .voiceGain
  have hclip := absLe_tanh (hamplitude.absLe.fmul_abs hlayer (c := 128) (by norm_num) (by simp)).finite
  exact ⟨absLe_share hP (hclip.fmul_abs hgain.absLe (c := 16) (by norm_num) (by simp)) hc hc', hoscs⟩
end

/-- The pan gains are in [−1, 1] (44_filter_mix.md R475). -/
theorem absLe_pan {P : Params} {R : Regs} (hR : RegsLegal P R) : AbsLe 1 (panL R) ∧ AbsLe 1 (panR R) := by
  have hpan : Between 0 (1 / 4) R.pan := between_getF hR .pan
  have hquarter : Between 0 (1 / 4) fQuarter := ⟨by decide, by rw [fval_fQuarter]; norm_num, fval_fQuarter.le⟩
  have hsum := hpan.fadd hquarter (lo := 0) (hi := 1 / 2) (by norm_num) (by norm_num) rep_zero rep_half
  exact ⟨absLe_sinT (hsum.mono le_rfl (by norm_num)), absLe_sinT (hpan.mono le_rfl (by norm_num))⟩

/-- Both channel sums are at most `k` contributions of at most `c` units of 2^-10. -/
def SumsWithin (k c : Nat) (m : F32 × F32) : Prop :=
  AbsLe ((k * c : Nat) / 2 ^ 10) m.1 ∧ AbsLe ((k * c : Nat) / 2 ^ 10) m.2

theorem SumsWithin.succ {k c : Nat} {m : F32 × F32} (h : SumsWithin k c m) : SumsWithin (k + 1) c m := by
  have hle : ((k * c : Nat) : ℚ) / 2 ^ 10 ≤ ((k + 1) * c : Nat) / 2 ^ 10 := by
    gcongr
    exact Nat.le_succ k
  exact ⟨h.1.mono (neg_le_neg hle) hle, h.2.mono (neg_le_neg hle) hle⟩

/-- A multiple of 2^-10 is exact, so `k` contributions add up to at most `k` times their bound (R474, R475). -/
theorem sumsWithin_mixIn {P : Params} {R : Regs} (hR : RegsLegal P R) {k c : Nat} (hkc : (k + 1) * c ≤ 2 ^ 24) {y : F32}
    {m : F32 × F32} (hy : AbsLe (c / 2 ^ 10) y) (hm : SumsWithin k c m) : SumsWithin (k + 1) c (mixIn R y m) := by
  have hrep : Rep (((k + 1) * c : Nat) / 2 ^ 10) := rep_nat_div hkc (by decide)
  have hc : Rep (c / 2 ^ 10) := rep_nat_div ((Nat.le_mul_of_pos_left c (Nat.succ_pos k)).trans hkc) (by decide)
  have hadd : ∀ {a x : F32}, AbsLe ((k * c : Nat) / 2 ^ 10) a → AbsLe (c / 2 ^ 10) x →
      AbsLe (((k + 1) * c : Nat) / 2 ^ 10) (fadd a x) := fun ha hx =>
    ha.fadd hx (by push_cast; linarith) (by push_cast; linarith) hrep.neg hrep
  obtain ⟨hL, hR'⟩ := absLe_pan hR
  unfold mixIn
  split
  case isTrue => exact ⟨hadd hm.1 hy, hm.succ.2⟩
  case isFalse =>
    exact ⟨hadd hm.1 (hy.fmul_abs hL (by rw [mul_one]) hc), hadd hm.2 (hy.fmul_abs hR' (by rw [mul_one]) hc)⟩

/-- What a frame needs of a voice. -/
structure VoiceReady (P : Params) (v : Voice) : Prop where
  legal : VoiceLegal P v
  tuned : VoiceTuned v
  oscs : ∀ o ∈ v.oscs, OscBetween o

section
variable {P : Params} {R : Regs} (hP : P.legal) (hR : RegsLegal P R) (hS : StartLegal P R)
include hP hR hS

theorem sumsWithin_mixVoices {c : Nat} (hc : 2 ^ 14 ≤ c * P.voiceMax) (vs : List Voice)
    (hvs : ∀ v ∈ vs, VoiceReady P v) {k : Nat} (hkc : (k + vs.length) * c ≤ 2 ^ 24) {m : F32 × F32}
    (hm : SumsWithin k c m) :
    SumsWithin (k + vs.length) c (mixVoices P R vs m).1 := by
  induction vs generalizing k m with
  | nil => exact hm
  | cons v vs ih =>
    have hlen : k + (v :: vs).length = k + 1 + vs.length := by rw [List.length_cons]; omega
    rw [hlen] at hkc ⊢
    obtain ⟨hv, hvs'⟩ := List.forall_mem_cons.mp hvs
    have hkc' : (k + 1) * c ≤ 2 ^ 24 := (Nat.mul_le_mul_right c (Nat.le_add_right _ _)).trans hkc
    rw [mixVoices]
    split
    case isTrue =>
      have hy := (voiceStep_between hP hR hS hv.legal hv.tuned hv.oscs hc
        ((Nat.le_mul_of_pos_left c (Nat.succ_pos k)).trans hkc')).1
      exact ih hvs' hkc (sumsWithin_mixIn hR hkc' hy hm)
    case isFalse => exact ih hvs' hkc hm.succ
end

/-! ## The mix -/

/-- The contributions' bound in units of 2^-10: 16 / VOICE_MAX, rounded up. -/
def voiceShare (n : Nat) : Nat := (2 ^ 14 + (n - 1)) / n

theorem voiceShare_mul {n : Nat} (hn : 1 ≤ n) : 2 ^ 14 ≤ voiceShare n * n ∧ voiceShare n * n ≤ 2 ^ 14 + (n - 1) := by
  unfold voiceShare
  have hdiv := Nat.div_add_mod (2 ^ 14 + (n - 1)) n
  have hmod := Nat.mod_lt (2 ^ 14 + (n - 1)) hn
  rw [Nat.mul_comm] at hdiv
  omega

/-- A VOICE_MAX that divides 32 divides 16 into contributions exactly. -/
theorem voiceShare_mul_of_dvd {n : Nat} (hn : 1 ≤ n) (h : n ∣ 32) : n * voiceShare n = 2 ^ 14 := by
  obtain ⟨j, hj⟩ := h
  have hsplit : 2 ^ 14 + (n - 1) = (n - 1) + n * (j * 2 ^ 9) := by rw [← Nat.mul_assoc, ← hj]; omega
  rw [voiceShare, hsplit, Nat.add_mul_div_left _ _ (by omega), Nat.div_eq_of_lt (by omega), Nat.zero_add,
    ← Nat.mul_assoc, ← hj]
  decide

theorem fval_master : fval 0x43808000 = 257 :=
  (fval_of_significand 134 0x808000 (by decide) (by decide) (by decide)).trans (by norm_num)

theorem fval_master_exact : fval 0x43800000 = 256 :=
  (fval_of_significand 134 (2 ^ 23) (by decide) (by decide) (by decide)).trans (by norm_num)

theorem within_master_iff {x : F32} : Within 0x43808000 x ↔ AbsLe 257 x := by
  rw [within_iff_absLe (by decide), fval_master]

theorem within_master_exact_iff {x : F32} : Within 0x43800000 x ↔ AbsLe 256 x := by
  rw [within_iff_absLe (by decide), fval_master_exact]

section
variable {s : State} (h : Legal s) (ht : Tuned s) (hb : Bounded s)
include h ht hb

theorem voiceReady_of_mem {v : Voice} (hv : v ∈ s.voices) : VoiceReady s.params v :=
  ⟨h.voices v hv, ht v hv, fun o ho => (oscBounded_iff o).mp (hb.oscs v hv o ho)⟩

variable (hbusy : s.busy = true)
include hbusy

/-- The master values, from the total of the contributions' bounds (44_filter_mix.md R476, R490). -/
theorem absLe_mix {B : Nat} (hB : s.params.voiceMax * voiceShare s.params.voiceMax * 16 ≤ B * 2 ^ 10) (hB' : B ≤ 2 ^ 24) :
    AbsLe B (mix s).1 ∧ AbsLe B (mix s).2.1 := by
  obtain ⟨hvoices, -⟩ := id h.params
  obtain ⟨hlo, hhi⟩ := voiceShare_mul hvoices.1
  have hzero : SumsWithin 0 (voiceShare s.params.voiceMax) (f0, f0) := by
    have h0 : AbsLe ((0 * voiceShare s.params.voiceMax : Nat) / 2 ^ 10) f0 :=
      ⟨by decide, by rw [fval_f0]; simp, by rw [fval_f0]; simp⟩
    exact ⟨h0, h0⟩
  have hsums := sumsWithin_mixVoices h.params h.active (h.busy hbusy).2 hlo s.voices
    (fun v hv => voiceReady_of_mem h ht hb hv) (k := 0)
    (by rw [Nat.zero_add, h.voiceCount, Nat.mul_comm]; omega) hzero
  rw [Nat.zero_add, h.voiceCount] at hsums
  have hcast : ((s.params.voiceMax * voiceShare s.params.voiceMax : Nat) : ℚ) / 2 ^ 10 * 16 ≤ B := by
    have hle : ((s.params.voiceMax * voiceShare s.params.voiceMax * 16 : Nat) : ℚ) ≤ (B * 2 ^ 10 : Nat) :=
      Nat.cast_le.mpr hB
    rw [Nat.cast_mul _ 16, Nat.cast_mul B] at hle
    rw [div_mul_eq_mul_div, div_le_iff₀ (by positivity)]
    exact_mod_cast hle
  have hvolume := (between_getF h.active .masterVolume).absLe
  exact ⟨hsums.1.fmul_abs hvolume hcast (rep_nat hB'), hsums.2.fmul_abs hvolume hcast (rep_nat hB')⟩

theorem absLe_mix_257 : AbsLe 257 (mix s).1 ∧ AbsLe 257 (mix s).2.1 := by
  obtain ⟨hvoices, -⟩ := id h.params
  obtain ⟨-, hhi⟩ := voiceShare_mul hvoices.1
  exact absLe_mix h ht hb hbusy (B := 257) (by rw [Nat.mul_comm s.params.voiceMax]; omega) (by decide)

theorem absLe_mix_256 (hdvd : s.params.voiceMax ∣ 32) : AbsLe 256 (mix s).1 ∧ AbsLe 256 (mix s).2.1 := by
  obtain ⟨hvoices, -⟩ := id h.params
  exact absLe_mix h ht hb hbusy (B := 256) (by rw [voiceShare_mul_of_dvd hvoices.1 hdvd]; decide) (by decide)

/-- The advance of the voices keeps the accumulators within their bounds. -/
theorem bounded_mix : Bounded (mix s).2.2 := by
  obtain ⟨hvoices, -⟩ := id h.params
  rw [mix_state]
  refine { hb with oscs := List.forall_mem_map.mpr fun v hv => ?_ }
  split
  case isTrue =>
    have hready := voiceReady_of_mem h ht hb hv
    obtain ⟨hlo, hhi⟩ := voiceShare_mul hvoices.1
    have hadvance := (voiceStep_between h.params h.active (h.busy hbusy).2 hready.legal hready.tuned hready.oscs hlo
      ((Nat.le_mul_of_pos_right _ hvoices.1).trans (hhi.trans (by omega)))).2
    exact fun o ho => (oscBounded_iff o).mpr (hadvance o ho)
  case isFalse => exact hb.oscs v hv
end

/-! ## The output stage -/

section
variable {P : Params} {s : State} (hR : RegsLegal P s.active) {x : F32} (hx : AbsLe 257 x)
  (hd : AbsLe 1 (memRead s.mem .dly s.delayRd))
include hR hx hd

/-- The soft-clipped value of a channel-sample (45_delay_output.md R501, R511). -/
theorem absLe_clipValue : AbsLe 1 (clipValue x s) := by
  unfold clipValue
  split
  case isFalse => exact absLe_tanh hx.finite
  case isTrue =>
    have hmix : Between 0 1 s.active.delayMix := between_getF hR .delayMix
    have hone := between_f1.fsub hmix (lo := 0) (hi := 1) (by norm_num) (by norm_num) (by simp) (by simp)
    have hdry := hone.absLe.fmul_abs hx (c := 257) (by norm_num) (by simp)
    have hfeedback : Between 0 1 s.active.delayFeedback := between_getF hR .delayFeedback
    have hgain : Between 0 16 s.active.delayGain := between_getF hR .delayGain
    have hecho := hfeedback.absLe.fmul_abs hd (c := 1) (by norm_num) (by simp)
    have hwet := hmix.absLe.fmul_abs hecho (c := 1) (by norm_num) (by simp)
    have hsum := hdry.fadd hwet (lo := -258) (hi := 258) (by norm_num) (by norm_num) (by simp) (by simp)
    exact absLe_tanh (hgain.absLe.fmul_abs hsum (c := 4128) (by norm_num) (by simp)).finite

theorem isSample_output : IsSample (output x s).1 := by
  rw [output_value, quantStage]
  have hclip := absLe_clipValue hR hx hd
  split
  · exact isSample_iff_absLe.mpr (absLe_quant hclip hR.quantBits)
  · exact isSample_iff_absLe.mpr hclip
end

/-- A channel-sample emits a word in [−1, 1] and leaves such words in the two RAMs. -/
theorem bounded_channelSample {s : State} (h : Legal s) (hb : Bounded s) (ch : Nat) {x : F32} (hx : AbsLe 257 x) :
    Bounded (channelSample ch x s) ∧ IsSample (output x s).1 := by
  obtain ⟨-, -, -, -, hcap, -⟩ := id h.params
  obtain ⟨hrd, -, hvis⟩ := h.cursors
  have hdelayed : AbsLe 1 (memRead s.mem .dly s.delayRd) := isSample_iff_absLe.mp (hb.dly _ hrd)
  have hsample := isSample_output h.active hx hdelayed
  refine ⟨⟨by rw [channelSample_voices]; exact hb.oscs, fun i hi => ?_, fun i hi => ?_⟩, hsample⟩
  · rw [channelSample_params] at hi
    rw [channelSample_dly_eq ch x h.mem (by omega)]
    split
    · exact isSample_iff_absLe.mpr (absLe_clipValue h.active hx hdelayed)
    · exact hb.dly i hi
  · rw [channelSample_params] at hi
    rw [channelSample_vis_eq ch x h.mem (by omega)]
    split
    · exact hsample
    · exact hb.vis i hi

/-- The output stream grows by words in [−1, 1]. -/
def EmitsSamples (s t : State) : Prop := ∃ ys, t.out = s.out ++ ys ∧ ∀ y ∈ ys, IsSample y

theorem emitsSamples_of_out_eq {s t : State} (h : t.out = s.out) : EmitsSamples s t :=
  ⟨[], by rw [h, List.append_nil], fun _ hy => absurd hy List.not_mem_nil⟩

theorem EmitsSamples.trans {s t u : State} (hst : EmitsSamples s t) (htu : EmitsSamples t u) : EmitsSamples s u := by
  obtain ⟨ys, hys, hsamples⟩ := hst
  obtain ⟨zs, hzs, hsamples'⟩ := htu
  exact ⟨ys ++ zs, by rw [hzs, hys, List.append_assoc],
    fun y hy => (List.mem_append.mp hy).elim (hsamples y) (hsamples' y)⟩

theorem bounded_channelSamples (n ch : Nat) {x0 x1 : F32} (h0 : AbsLe 257 x0) (h1 : AbsLe 257 x1) {s : State}
    (h : Legal s) (hb : Bounded s) :
    Bounded (channelSamples n ch x0 x1 s) ∧ EmitsSamples s (channelSamples n ch x0 x1 s) := by
  induction n generalizing ch s with
  | zero => exact ⟨hb, emitsSamples_of_out_eq rfl⟩
  | succ n ih =>
    have hx : AbsLe 257 (if ch = 0 then x0 else x1) := by split <;> assumption
    obtain ⟨hb', hsample⟩ := bounded_channelSample h hb ch hx
    obtain ⟨hbn, hemits⟩ := ih (ch + 1) (legal_channelSample h ch _) hb'
    exact ⟨hbn, .trans ⟨_, channelSample_out .., fun y hy => List.mem_singleton.mp hy ▸ hsample⟩ hemits⟩

theorem bounded_of_eq {s t : State} (h : Bounded s) (hvoices : t.voices = s.voices) (hmem : t.mem = s.mem)
    (hparams : t.params = s.params) : Bounded t :=
  ⟨by rw [hvoices]; exact h.oscs, by rw [hmem, hparams]; exact h.dly, by rw [hmem, hparams]; exact h.vis⟩

theorem bounded_frameStep {s : State} (h : Legal s) (ht : Tuned s) (hb : Bounded s) (hbusy : s.busy = true) :
    Bounded (frameStep s) ∧ EmitsSamples s (frameStep s) := by
  obtain ⟨hx0, hx1⟩ := absLe_mix_257 h ht hb hbusy
  obtain ⟨hb', ys, hout, hys⟩ := bounded_channelSamples s.active.channels.toNat 0 hx0 hx1 (legal_mix h)
    (bounded_mix h ht hb hbusy)
  obtain ⟨hmem, hout', -, -, hvoices, hparams⟩ := frameStep_of_samples s
  have hstart : (mix s).2.2.out = s.out := by rw [mix_state]; rfl
  exact ⟨bounded_of_eq hb' hvoices hmem hparams, ys, by rw [hout', ← hstart]; exact hout, hys⟩

/-! ## The other steps -/

/-- The state keeps the bounds and emits nothing. -/
def BoundedQuietly (s t : State) : Prop := Bounded t ∧ t.out = s.out

theorem oscBounded_initOsc (wave : WaveKind) (W : WaveSpec) (p e0 : F32) : OscBounded (initOsc wave W p e0) where
  elapsed := (by decide : fle f0 f0 = true ∧ fle f0 0x45800000 = true)
  integ := (by decide : Within 0x4CC00000 f0)
  dcX := (by decide : Within 0x4CC00000 f0)
  dcY := (by decide : flt (fabs f0) 0x5A000000 = true)
  fFast := (by decide : Within 0x5E800000 f0)
  fSlow := (by decide : Within 0x5E800000 f0)

theorem oscBounded_resetOsc : OscBounded resetOsc := { oscBounded_initOsc .sine resetSpec f0 f0 with }

/-- Every word of both RAMs is +0.0 after reset. -/
theorem isSample_memRead_nil (sp : Space) (i : Nat) : IsSample (memRead [] sp i) := by
  have hzero : memRead [] sp i = f0 := by
    simp only [memRead, Memory.readWord, Memory.read]
    rfl
  rw [hzero]
  decide

theorem bounded_resetOf (P : Params) : Bounded (State.resetOf P) where
  oscs v hv o ho := by
    rw [List.eq_of_mem_replicate hv] at ho
    rw [List.eq_of_mem_replicate ho]
    exact oscBounded_resetOsc
  dly i _ := isSample_memRead_nil .dly i
  vis i _ := isSample_memRead_nil .vis i

section
variable {s : State} (h : Bounded s)
include h

theorem bounded_noteOff (k : BitVec 7) : Bounded (noteOff k s) :=
  { h with
    oscs := List.forall_mem_map.mpr fun v hv => by
      unfold releaseVoice
      split
      · exact List.forall_mem_map.mpr fun o ho => { h.oscs v hv o ho with }
      · exact h.oscs v hv }

theorem bounded_noteOn (k vel : BitVec 7) : Bounded (noteOn k vel s) := by
  cases htarget : noteTarget s k with
  | none => rw [noteOn_none htarget]; exact { h with }
  | some v =>
    have hinit : ∀ o ∈ (initVoice s.params s.active s.waveSel s.layerSel s.draws k vel (s.voice v)).oscs, OscBounded o :=
      List.forall_mem_map.mpr fun _ _ => oscBounded_initOsc ..
    rw [noteOn_some htarget]
    exact { h with oscs := forall_mem_set h.oscs hinit v }

/-- An event changes slots by an initialization or a release only. -/
theorem boundedQuietly_applyEvent (e : Event) : BoundedQuietly s (applyEvent e s) := by
  cases e with
  | reserved | badData | ccOther => exact ⟨{ h with }, rfl⟩
  | noteOff _ k => exact ⟨bounded_noteOff h k, noteOff_out k s⟩
  | noteOn _ k vel => exact ⟨bounded_noteOn h k vel, noteOn_out k vel s⟩
  | ccWave _ d =>
    exact ⟨bounded_of_eq h (selectWave_voices d s) (selectWave_mem d s) (selectWave_params d s), selectWave_out d s⟩
  | ccLayer _ d =>
    exact ⟨bounded_of_eq h (selectLayer_voices d s) (selectLayer_mem d s) (selectLayer_params d s), selectLayer_out d s⟩

theorem boundedQuietly_boundary : BoundedQuietly s (boundary s) :=
  drain_induction (Q := BoundedQuietly s) (fun _ _ ht => ⟨{ ht.1 with }, ht.2⟩)
    (fun _ e ht => (boundedQuietly_applyEvent ht.1 e).imp_right (·.trans ht.2)) _ _ ⟨{ h with }, rfl⟩

theorem boundedQuietly_raise (e : ErrKind) : BoundedQuietly s (raise e s) := ⟨{ h with }, rfl⟩

theorem boundedQuietly_render (w : Word) : Answers (exec (.render w) s) (BoundedQuietly s) := by
  obtain ⟨hboundary, hout⟩ := boundedQuietly_boundary h
  refine ⟨_, rfl, ?_⟩
  split
  case isTrue => exact boundedQuietly_raise h _
  split
  case isTrue => exact boundedQuietly_raise h _
  split
  case isTrue => exact boundedQuietly_raise h _
  case isFalse => exact ⟨{ hboundary with }, hout⟩

theorem boundedQuietly_ctrlStart (w : Word) : Answers (exec (.ctrlStart w) s) (BoundedQuietly s) := by
  refine ⟨_, rfl, ?_⟩
  split
  case isTrue => exact ⟨{ h with }, rfl⟩
  split
  case isTrue => exact boundedQuietly_raise h _
  split
  case isTrue => exact boundedQuietly_raise h _
  case isFalse => exact ⟨{ h with }, rfl⟩

theorem boundedQuietly_ctrlStop (w : Word) : Answers (exec (.ctrlStop w) s) (BoundedQuietly s) := by
  refine ⟨_, rfl, ?_⟩
  split
  case isTrue => exact ⟨h, rfl⟩
  split
  case isTrue => exact ⟨{ h with }, rfl⟩
  case isFalse => exact ⟨{ h with }, rfl⟩

/-- A choice between the state and the state with another pending copy. -/
theorem boundedQuietly_withPend_or (b : Bool) (R : Regs) :
    BoundedQuietly s (if b then s else withPend R s) ∧ BoundedQuietly s (if b then withPend R s else s) := by
  cases b with
  | true => exact ⟨⟨h, rfl⟩, ⟨{ h with }, rfl⟩⟩
  | false => exact ⟨⟨{ h with }, rfl⟩, ⟨h, rfl⟩⟩

theorem boundedQuietly_readLoc (l : Loc) : BoundedQuietly s (readLoc l s) := by
  unfold readLoc
  split
  · exact ⟨{ h with }, rfl⟩
  · exact ⟨{ h with }, rfl⟩

theorem boundedQuietly_clearCounter (c : Counter) : BoundedQuietly s (clearCounter c s) := by
  cases c with
  | drop | ign | qovf => exact ⟨{ h with }, rfl⟩

theorem boundedQuietly_pushEvent (e : EventWord) : BoundedQuietly s (pushEvent e s) := by
  unfold pushEvent
  split
  · exact ⟨{ h with }, rfl⟩
  · exact ⟨{ h with }, rfl⟩

/-- No instruction touches an accumulator but by an event or the reset, and none emits a word. -/
theorem exec_boundedQuietly (i : Instr) : Answers (exec i s) (BoundedQuietly s) := by
  cases i with
  | busMisaligned rw a w =>
    refine ⟨_, rfl, ?_⟩
    split
    · exact boundedQuietly_raise h _
    · exact ⟨{ h with }, rfl⟩
  | rd a => exact ⟨_, rfl, boundedQuietly_readLoc h _⟩
  | ctrlSoftReset w => exact ⟨_, rfl, { bounded_resetOf s.params with }, rfl⟩
  | ctrlStart w => exact boundedQuietly_ctrlStart h w
  | ctrlStop w => exact boundedQuietly_ctrlStop h w
  | statusW1c w => exact ⟨_, rfl, { h with }, rfl⟩
  | evPush w => exact ⟨_, rfl, boundedQuietly_pushEvent h _⟩
  | render w => exact boundedQuietly_render h w
  | cntClear c w => exact ⟨_, rfl, boundedQuietly_clearCounter h c⟩
  | wrSampleRate w | wrChannels w => exact ⟨_, rfl, (boundedQuietly_withPend_or h s.run _).1⟩
  | wrVelT w => exact ⟨_, rfl, (boundedQuietly_withPend_or h (velStored w) _).2⟩
  | wrMode w | wrDelayLen w | wrQuantBits w => exact ⟨_, rfl, { h with }, rfl⟩
  | wrF32MasterVolume w | wrF32VoiceGain w | wrF32OscGain w | wrF32DelayGain w | wrF32DelayFeedback w | wrF32DelayMix w
  | wrF32VibRate w | wrF32VibDepth w | wrF32VibOnset w | wrF32TremRate w | wrF32TremDepth w | wrF32AttackS w
  | wrF32DecayS w | wrF32Sustain w | wrF32ReleaseS w | wrF32EnvFloor w | wrF32FiltAFast w | wrF32FiltASlow w
  | wrF32DcBlock w | wrF32Pan w | wrF32VelG0 w | wrF32VelG1 w | wrF32VelG2 w | wrF32VelG3 w | wrF32VelGmin w
  | wrF32VelGmax w => exact ⟨_, rfl, { h with }, rfl⟩
  | wrPresetCount p w => exact ⟨_, rfl, { h with }, rfl⟩
  | wrPresetOct p o w | wrPresetDuty p o w | wrPresetVol p o w | wrPresetDetune p o w => exact ⟨_, rfl, { h with }, rfl⟩
  | wrIgnored a w => exact ⟨_, rfl, h, rfl⟩
  | evReserved e => exact ⟨_, rfl, boundedQuietly_applyEvent h (.reserved e)⟩
  | evBaddata e => exact ⟨_, rfl, boundedQuietly_applyEvent h (.badData e)⟩
  | noteOff ch k rv => exact ⟨_, rfl, boundedQuietly_applyEvent h (.noteOff ch k rv)⟩
  | noteOn ch k vel => exact ⟨_, rfl, boundedQuietly_applyEvent h (.noteOn ch k vel)⟩
  | ccWave ch d => exact ⟨_, rfl, boundedQuietly_applyEvent h (.ccWave ch d)⟩
  | ccLayer ch d => exact ⟨_, rfl, boundedQuietly_applyEvent h (.ccLayer ch d)⟩
  | ccOther ch ctl d => exact ⟨_, rfl, boundedQuietly_applyEvent h (.ccOther ch ctl d)⟩
end

/-- Every step keeps the bounds and emits words in [−1, 1] only. -/
theorem step_bounded {s t : State} (h : Legal s) (ht : Tuned s) (hb : Bounded s) (hstep : step s = .next t) :
    Bounded t ∧ EmitsSamples s t := by
  obtain ⟨hs, hcase⟩ := step_cases hstep
  have hinput : Bounded (withHost hs s) := { hb with }
  obtain ⟨T, hexec⟩ | rfl | rfl := hcase
  · obtain ⟨t', hnext, ht', hout⟩ := exec_boundedQuietly hinput (decodeBus s.params T)
    obtain rfl : t' = t := Host.Outcome.next.inj (hnext.symm.trans hexec)
    exact ⟨ht', emitsSamples_of_out_eq hout⟩
  · exact ⟨{ bounded_resetOf s.params with }, emitsSamples_of_out_eq rfl⟩
  · unfold engineStep
    split
    case isTrue hbusy => exact bounded_frameStep (legal_withHost h hs) ht hinput hbusy
    case isFalse => exact ⟨hinput, emitsSamples_of_out_eq rfl⟩

/-- Settles O44: every value that a frame computes lies between values of the format that bound its exact result. -/
theorem outputInRange : Obligations.OutputInRange := by
  unfold Obligations.OutputInRange
  refine ⟨fun x s hR hx hd => isSample_output hR (within_master_iff.mp hx) (isSample_iff_absLe.mp hd),
    fun s h ht hb hbusy => ⟨?_, fun hdvd => ?_⟩, fun s t h ht hb hstep => step_bounded h ht hb hstep⟩
  · exact (absLe_mix_257 h ht hb hbusy).imp within_master_iff.mpr within_master_iff.mpr
  · exact (absLe_mix_256 h ht hb hbusy hdvd).imp within_master_exact_iff.mpr within_master_exact_iff.mpr

end Sys2Proof.Machine

/-!
SUPPORT. Reset (70_reset_and_hazards.md R700, R701): the two triggers, and the parts of the reset state that are computed
from others: the words of the RAMs, the configuration words and STATUS.
-/

namespace Sys2Proof.Machine

/-! ## The two triggers -/

/-- Bit 1 of CTRL is looked at before bit 0 (40_host_commands.md R255). -/
theorem decodeCtrl_of_softReset {w : Word} (h : w.getLsbD 1 = true) : decodeCtrl w = .ctrlSoftReset w := if_pos h

theorem exec_ctrlSoftReset (w : Word) (s : State) : exec (.ctrlSoftReset w) s = .next (resetBlock s) := rfl

theorem step_hardReset {s : State} {rest : List HostInput} (h : s.host = .hardReset :: rest) :
    step s = .next (resetBlock (withHost rest s)) := by
  rw [step, h]

/-- Settles O11: both triggers run `resetBlock`; the reset input is first taken off the host's list. -/
theorem resetResult : Obligations.ResetResult := by
  unfold Obligations.ResetResult
  refine ⟨fun w s hw => ?decode, exec_ctrlSoftReset, fun s rest hs => step_hardReset hs⟩
  case decode => rw [decode_ctrl_write, decodeCtrl_of_softReset hw]

/-! ## The reset state -/

theorem memRead_nil (sp : Space) (i : Nat) : memRead [] sp i = 0 := by
  simp only [memRead, Memory.readWord, Memory.read]
  rfl

theorem velTWord_resetRegs (P : Params) : velTWord (resetRegs P) = 0x6020 := by
  dsimp only [velTWord, resetRegs]
  decide

theorem map_getF_resetRegs (P : Params) (rs : List FReg) : rs.map (resetRegs P).getF = rs.map fregReset :=
  List.map_congr_left fun r _ => resetRegs_getF r

/-- The empty queue is not full, because every legal instance has CMDQ_DEPTH ≥ 1. -/
theorem qfull_resetOf {P : Params} (hP : P.legal) : (State.resetOf P).qfull = false := by
  obtain ⟨-, -, -, -, -, hdepth, -⟩ := hP
  have hne : ([] : List EventWord).length ≠ P.cmdqDepth := by rw [List.length_nil]; omega
  exact beq_eq_false_iff_ne.mpr hne

/-- Of the flags of STATUS only QEMPTY is set. -/
theorem statusWord_resetOf {P : Params} (hP : P.legal) : statusWord (State.resetOf P) = 0x40 := by
  have hempty : (State.resetOf P).qempty = true := rfl
  have hbusy : (State.resetOf P).busy = false := rfl
  rw [statusWord, statusFlags, qfull_resetOf hP, hempty, hbusy]
  dsimp only [State.resetOf]
  decide

/-- Settles O10: the rows of R701 in the statement's order; a voice, a slot or a preset is a copy of its reset value. -/
theorem resetTable : Obligations.ResetTable := by
  unfold Obligations.ResetTable
  intro P hP s
  refine ⟨⟨List.length_replicate, fun v hv => ?voice⟩, rfl, rfl, rfl, memRead_nil .dly, memRead_nil .vis,
    rfl, rfl, rfl, rfl, rfl, rfl, rfl, rfl, rfl, rfl, velTWord_resetRegs P, map_getF_resetRegs P _, map_getF_resetRegs P _,
    ⟨List.length_replicate, fun Q hQ => ?preset⟩, rfl, statusWord_resetOf hP, rfl, rfl, rfl, rfl, rfl, rfl, rfl⟩
  case voice =>
    obtain rfl : v = resetVoice P := List.eq_of_mem_replicate hv
    refine ⟨rfl, rfl, rfl, rfl, rfl, rfl, List.length_replicate, fun o ho => ?slot⟩
    case slot =>
      obtain rfl : o = resetOsc := List.eq_of_mem_replicate ho
      decide
  case preset =>
    obtain rfl : Q = resetPreset P := List.eq_of_mem_replicate hQ
    refine ⟨rfl, List.length_replicate, fun W hW => ?slot⟩
    case slot =>
      obtain rfl : W = resetSpec := List.eq_of_mem_replicate hW
      decide

end Sys2Proof.Machine

/-!
SUPPORT. The encoder against the decoder (30_encoding.md R200-R210): a word is put together again from its fields, an
address that `locate` gives a write of its own is the address the encoder writes for it, and every other one is ignored.
-/

namespace Sys2Proof
open Sys2Proof.Machine

/-! ## Words from their fields -/

theorem toNat_extract {w : Nat} (x : BitVec w) (start len : Nat) :
    (x.extractLsb' start len).toNat = x.toNat / 2 ^ start % 2 ^ len := by
  rw [BitVec.extractLsb'_toNat, Nat.shiftRight_eq_div_pow]

theorem getLsbD_eq_decide {w : Nat} (x : BitVec w) (i : Nat) : x.getLsbD i = decide (x.toNat / 2 ^ i % 2 = 1) := by
  rw [BitVec.getLsbD, Nat.testBit_eq_decide_div_mod_eq]

/-- A transaction is the word of its three fields (R206). -/
theorem busWord_fields (T : BusWord) : busWord (busRw T) (busAddr T) (busData T) = T := by
  have hlt := T.isLt
  have hrw : (if busRw T then 1#1 else 0#1).toNat = T.toNat / 2 ^ 52 := by
    rw [busRw, getLsbD_eq_decide]
    by_cases h : T.toNat / 2 ^ 52 % 2 = 1
    · rw [decide_eq_true h, if_pos rfl, BitVec.toNat_ofNat]; omega
    · rw [decide_eq_false h, if_neg Bool.false_ne_true, BitVec.toNat_ofNat]; omega
  apply BitVec.eq_of_toNat_eq
  unfold busWord busAddr busData
  rw [toNat_append_eq_add, toNat_append_eq_add, hrw, toNat_extract, toNat_extract]
  omega

/-- An event word whose data bytes have their high bits 0 is the word of its four fields (R200). -/
theorem eventWord_fields {e : EventWord} (hb : ¬ (e.getLsbD 15 = true ∨ e.getLsbD 7 = true)) :
    eventWord (e.extractLsb' 20 4) (e.extractLsb' 16 4) (e.extractLsb' 8 7) (e.extractLsb' 0 7) = e := by
  have hlt := e.isLt
  rw [getLsbD_eq_decide, getLsbD_eq_decide, decide_eq_true_eq, decide_eq_true_eq] at hb
  apply BitVec.eq_of_toNat_eq
  unfold eventWord
  simp only [toNat_append_eq_add, toNat_extract, BitVec.toNat_ofNat]
  omega

/-! ## The addresses with a write of their own -/

/-- The byte address the encoder writes for a location that has a write of its own; 0 for the others. -/
def Loc.writeAddr : Loc → Nat
  | .ctrl => 0x10
  | .status => 0x14
  | .event => 0x18
  | .renderReq => 0x1C
  | .dropCount => Counter.drop.addr
  | .ignCount => Counter.ign.addr
  | .qovfCount => Counter.qovf.addr
  | .int r => r.addr
  | .flt r => r.addr
  | .presetCount p => presetCountAddr p
  | .presetField p o f => presetFieldAddr p o f.select
  | .id | .cfg0 | .cfg1 | .cfg2 | .frameCount | .delayRd | .delayWr | .visWr | .sel
  | .voice _ _ | .osc _ _ _ | .vis _ | .dly _ | .unmapped => 0

/-- Whether a preset location is of a preset and a slot that exist; true of every other location. -/
def Loc.Present (P : Params) : Loc → Prop
  | .presetCount p => p.toNat < P.numPresets
  | .presetField p o _ => p.toNat < P.numPresets ∧ o.toNat < P.oscMax
  | _ => True

/-- Whether the location is a preset's. -/
def Loc.isPreset : Loc → Bool
  | .presetCount _ | .presetField _ _ _ => true
  | _ => false

theorem Loc.present_of_not_isPreset (P : Params) {l : Loc} (h : l.isPreset = false) : l.Present P := by
  cases l with
  | presetCount | presetField => cases h
  | _ => trivial

/-- What the address map makes of a write to `a`: it is ignored, and `a` is none of R210's addresses, or it goes to a
location that exists, whose address is `a`. -/
def Loc.WriteAt (P : Params) (a : BusAddr) (l : Loc) : Prop :=
  (ignoresWrites l = true ∧ writableAddr P a = false) ∨
    (ignoresWrites l = false ∧ writableAddr P a = true ∧ l.writeAddr = a.toNat ∧ l.Present P)

theorem controlLocs_write : ∀ i < 16, (controlLocs.getD i .unmapped).isPreset = false ∧
    ignoresWrites (controlLocs.getD i .unmapped) = decide (¬ (4 ≤ i ∧ i ≤ 10)) ∧
    (4 ≤ i → i ≤ 10 → (controlLocs.getD i .unmapped).writeAddr = 4 * i) := by decide

theorem configLocs_write : ∀ i < 32, (configLocs.getD i .unmapped).isPreset = false ∧
    ignoresWrites (configLocs.getD i .unmapped) = false ∧
    (configLocs.getD i .unmapped).writeAddr = 0x100 + 4 * i := by decide

theorem writableAddr_iff (P : Params) (a : BusAddr) : writableAddr P a = true ↔
    (0x10 ≤ a.toNat ∧ a.toNat ≤ 0x28) ∨ (0x100 ≤ a.toNat ∧ a.toNat ≤ 0x17C) ∨
    (a.toNat / 0x800 = 1 ∧ a.toNat / 0x100 % 8 < P.numPresets ∧
      (a.toNat % 0x100 = 0 ∨ (a.toNat / 0x80 % 2 = 1 ∧ a.toNat / 0x10 % 8 < P.oscMax))) := by
  simp only [writableAddr, Bool.or_eq_true, Bool.and_eq_true, decide_eq_true_eq, beq_iff_eq, or_assoc, and_assoc]
  rfl

theorem writableAddr_eq_false {P : Params} {a : BusAddr}
    (h : ¬ ((0x10 ≤ a.toNat ∧ a.toNat ≤ 0x28) ∨ (0x100 ≤ a.toNat ∧ a.toNat ≤ 0x17C) ∨
      (a.toNat / 0x800 = 1 ∧ a.toNat / 0x100 % 8 < P.numPresets ∧
        (a.toNat % 0x100 = 0 ∨ (a.toNat / 0x80 % 2 = 1 ∧ a.toNat / 0x10 % 8 < P.oscMax))))) : writableAddr P a = false :=
  Bool.eq_false_of_not_eq_true ((writableAddr_iff P a).not.mpr h)

theorem toNat_ofSelect (f : BitVec 2) : (PField.ofSelect f).select = f.toNat := by
  revert f
  decide

section
variable {P : Params} {a : BusAddr} (ha : a.toNat % 4 = 0)
include ha

theorem writeAt_control (hn : a.toNat < 0x40) : Loc.WriteAt P a (controlLocs.getD (a.toNat / 4) .unmapped) := by
  obtain ⟨hpreset, hign, haddr⟩ := controlLocs_write (a.toNat / 4) (by omega)
  by_cases h : 4 ≤ a.toNat / 4 ∧ a.toNat / 4 ≤ 10
  · exact .inr ⟨hign.trans (decide_eq_false (not_not.mpr h)), (writableAddr_iff P a).mpr (.inl (by omega)),
      by rw [haddr h.1 h.2]; omega,
      Loc.present_of_not_isPreset P hpreset⟩
  · exact .inl ⟨hign.trans (decide_eq_true h), writableAddr_eq_false (by omega)⟩

theorem writeAt_config (hlo : 0x100 ≤ a.toNat) (hhi : a.toNat < 0x180) :
    Loc.WriteAt P a (configLocs.getD ((a.toNat - 0x100) / 4) .unmapped) := by
  obtain ⟨hpreset, hign, haddr⟩ := configLocs_write ((a.toNat - 0x100) / 4) (by omega)
  exact .inr ⟨hign, (writableAddr_iff P a).mpr (.inr (.inl (by omega))), by rw [haddr]; omega,
    Loc.present_of_not_isPreset P hpreset⟩

theorem writeAt_preset (hlo : 0x800 ≤ a.toNat) (hhi : a.toNat < 0x1000) : Loc.WriteAt P a (locatePreset P a) := by
  have hp : (a.extractLsb' 8 3).toNat = a.toNat / 0x100 % 8 := toNat_extract a 8 3
  have ho : (a.extractLsb' 4 3).toNat = a.toNat / 0x10 % 8 := toNat_extract a 4 3
  have hf : (a.extractLsb' 2 2).toNat = a.toNat / 4 % 4 := toNat_extract a 2 2
  have hcount : a.extractLsb' 0 8 = 0 ↔ a.toNat % 0x100 = 0 := by
    rw [BitVec.toNat_eq, toNat_extract]
    exact Iff.of_eq (by rw [Nat.pow_zero, Nat.div_one]; rfl)
  have hslots : a.getLsbD 7 = true ↔ a.toNat / 0x80 % 2 = 1 := by
    rw [getLsbD_eq_decide]
    exact decide_eq_true_iff
  unfold locatePreset
  dsimp only
  rw [hp, ho]
  split
  case isFalse hnone =>
    exact .inl ⟨rfl, writableAddr_eq_false (by omega)⟩
  case isTrue hpreset =>
  split
  case isTrue hbit =>
    rw [hslots] at hbit
    split
    case isTrue hslot =>
      refine .inr ⟨rfl, (writableAddr_iff P a).mpr (by omega), ?_, by rw [Loc.Present, hp, ho]; exact ⟨hpreset, hslot⟩⟩
      rw [Loc.writeAddr, presetFieldAddr, hp, ho, toNat_ofSelect, hf]
      omega
    case isFalse hslot =>
      exact .inl ⟨rfl, writableAddr_eq_false (by omega)⟩
  case isFalse hbit =>
    rw [hslots] at hbit
    split
    case isTrue hzero =>
      rw [hcount] at hzero
      refine .inr ⟨rfl, (writableAddr_iff P a).mpr (by omega), ?_, by rw [Loc.Present, hp]; exact hpreset⟩
      rw [Loc.writeAddr, presetCountAddr, hp]
      omega
    case isFalse hzero =>
      rw [hcount] at hzero
      exact .inl ⟨rfl, writableAddr_eq_false (by omega)⟩

/-- The address map and the table of R210 agree on which aligned addresses have a write of their own. -/
theorem writeAt_locate : Loc.WriteAt P a (locate P a) := by
  unfold locate
  dsimp only
  rw [if_neg (by omega)]
  split
  case isTrue hn => exact writeAt_control ha hn
  split
  case isTrue hn => exact writeAt_config ha hn.1 hn.2
  split
  case isTrue hn => exact writeAt_preset ha hn.1 hn.2
  case isFalse hcontrol hconfig hpresets =>
  have hnot : writableAddr P a = false :=
    writableAddr_eq_false (by omega)
  refine .inl ⟨?_, hnot⟩
  split
  · rfl
  split
  · split <;> rfl
  split
  · rfl
  split <;> rfl
end

/-! ## Decoding and encoding -/

theorem writeTo_toNat (a : BusAddr) (w : Word) : writeTo a.toNat w = .bus (busWord true a w) := by
  rw [writeTo, BitVec.ofNat_toNat, BitVec.setWidth_eq]

theorem decode_render_write (P : Params) (w : Word) : decode P (.bus (busWord true 0x1C w)) = .render w := by
  have hloc : locate P (BitVec.ofNat 20 0x1C) = .renderReq := locate_control P rfl (by decide)
  exact (decode_write P w (n := 0x1C) rfl).trans (by rw [decodeWrite, hloc])

/-- A field of a slot that exists; the fields of 3 bits bound the indices, whatever NUM_PRESETS and OSC_MAX are. -/
theorem locate_presetField_field (P : Params) {p o : BitVec 3} (f : PField) (hp : p.toNat < P.numPresets)
    (ho : o.toNat < P.oscMax) :
    locate P (BitVec.ofNat 20 (0x880 + 0x100 * p.toNat + 0x10 * o.toNat + 4 * f.select)) = .presetField p o f := by
  have hplt := p.isLt
  have holt := o.isLt
  have hf : f.select < 4 := by cases f <;> decide
  have hn : 0x880 + 0x100 * p.toNat + 0x10 * o.toNat + 4 * f.select < 2 ^ 20 := by omega
  have hself {x : BitVec 3} : BitVec.ofNat 3 x.toNat = x := BitVec.eq_of_toNat_eq (toNat_ofNat_of_lt x.isLt)
  have hpreset := (extractLsb'_busAddr (start := 8) (len := 3) (m := p.toNat) hn rfl (by omega)).trans hself
  have hslot := (extractLsb'_busAddr (start := 4) (len := 3) (m := o.toNat) hn rfl (by omega)).trans hself
  have hfield := extractLsb'_busAddr (start := 2) (len := 2) (m := f.select) hn rfl (by omega)
  have hselect : PField.ofSelect (BitVec.ofNat 2 f.select) = f := by cases f <;> rfl
  have hslots : (BitVec.ofNat 20 (0x880 + 0x100 * p.toNat + 0x10 * o.toNat + 4 * f.select)).getLsbD 7 = true := by
    rw [getLsbD_busAddr (by omega), decide_eq_true (by omega)]
  rw [locate_preset_window P (by omega) (by omega) (by omega)]
  simp only [locatePreset, hpreset, hslot, hfield, hselect, hslots, hp, ho, if_true]

theorem decode_presetField_write (P : Params) (f : PField) {p o : BitVec 3} (w : Word) (hp : p.toNat < P.numPresets)
    (ho : o.toNat < P.oscMax) :
    decode P (.bus (busWord true (BitVec.ofNat 20 (0x880 + 0x100 * p.toNat + 0x10 * o.toNat + 4 * f.select)) w)) =
      f.write p o w :=
  (decode_write P w (by omega)).trans (by rw [decodeWrite, locate_presetField_field P f hp ho])

/-- The encoder's spelling of a preset field's address. -/
theorem presetFieldAddr_eq (p o : BitVec 3) (f : Nat) :
    presetFieldAddr p o f = 0x880 + 0x100 * p.toNat + 0x10 * o.toNat + 4 * f := by
  rw [presetFieldAddr, Nat.mul_comm p.toNat, Nat.mul_comm o.toNat]

theorem presetCountAddr_eq (p : BitVec 3) : presetCountAddr p = 0x800 + 0x100 * p.toNat := by
  rw [presetCountAddr, Nat.mul_comm]

section
variable {P : Params} {w : Word}

theorem decode_encode_presetField (f : PField) {p o : BitVec 3} (h : (f.write p o w).wellFormed P = true) :
    decode P (encode P (f.write p o w)) = f.write p o w := by
  have hexists : (decide (p.toNat < P.numPresets) && decide (o.toNat < P.oscMax)) = true := by cases f <;> exact h
  rw [Bool.and_eq_true, decide_eq_true_eq, decide_eq_true_eq] at hexists
  have hencode : encode P (f.write p o w) = writeTo (presetFieldAddr p o f.select) w := by cases f <;> rfl
  rw [hencode, presetFieldAddr_eq]
  exact decode_presetField_write P f w hexists.1 hexists.2

theorem decode_encode_presetCount {p : BitVec 3} (h : (Instr.wrPresetCount p w).wellFormed P = true) :
    decode P (encode P (.wrPresetCount p w)) = .wrPresetCount p w := by
  rw [encode, presetCountAddr_eq]
  exact decode_presetCount_write P w (of_decide_eq_true h)

theorem decode_encode_wrIgnored {a : BusAddr} (h : (Instr.wrIgnored a w).wellFormed P = true) :
    decode P (encode P (.wrIgnored a w)) = .wrIgnored a w := by
  obtain ⟨ha, hnot⟩ : aligned a = true ∧ writableAddr P a = false := by
    simpa only [Instr.wellFormed, Bool.and_eq_true, Bool.not_eq_true'] using h
  obtain ⟨hign, -⟩ | ⟨-, hwritable, -⟩ := writeAt_locate (P := P) (beq_iff_eq.mp ha)
  · exact (decodeBus_write P a w ha).trans (decodeWrite_of_ignoresWrites w rfl hign)
  · exact absurd (hnot.symm.trans hwritable) Bool.false_ne_true

theorem decode_encode_busMisaligned {rw : Bool} {a : BusAddr} (h : (Instr.busMisaligned rw a w).wellFormed P = true) :
    decode P (encode P (.busMisaligned rw a w)) = .busMisaligned rw a w := by
  obtain ⟨ha, hdata⟩ : aligned a = false ∧ (rw = true ∨ w = 0) := by
    simpa only [Instr.wellFormed, Bool.and_eq_true, Bool.not_eq_true', Bool.or_eq_true, beq_iff_eq] using h
  refine (decodeBus_misaligned P rw a w ha).trans ?_
  obtain rfl | rfl := hdata
  · rfl
  · rw [ite_self]

theorem decode_encode_evBaddata {e : EventWord} (h : (Instr.evBaddata e).wellFormed P = true) :
    decode P (encode P (.evBaddata e)) = .evBaddata e := by
  obtain ⟨ht, hb⟩ : knownType (e.extractLsb' 20 4) = true ∧ (e.getLsbD 15 = true ∨ e.getLsbD 7 = true) := by
    simpa only [Instr.wellFormed, Bool.and_eq_true, Bool.or_eq_true] using h
  exact decode_event_of_decodeEvent (decodeEvent_of_badData P ht hb)

theorem decode_encode_evReserved {e : EventWord} (h : (Instr.evReserved e).wellFormed P = true) :
    decode P (encode P (.evReserved e)) = .evReserved e := by
  have ht : knownType (e.extractLsb' 20 4) = false := by
    simpa only [Instr.wellFormed, Bool.not_eq_true'] using h
  exact decode_event_of_decodeEvent (decodeEvent_of_not_knownType P (by rw [ht]; exact Bool.false_ne_true))

theorem decode_noteOn (P : Params) (ch : BitVec 4) (k vel : BitVec 7) :
    decode P (.event (eventWord 0x9 ch k vel)) = .noteOn ch k vel := by
  have h := decodeEvent_noteOn P (eventWord_clean 0x9 ch k vel) (eventWord_type ..)
  rw [eventWord_chan, eventWord_data1, eventWord_data2] at h
  exact decode_event_of_decodeEvent h

theorem decode_encode_ccOther {ch : BitVec 4} {ctl d : BitVec 7} (h : (Instr.ccOther ch ctl d).wellFormed P = true) :
    decode P (encode P (.ccOther ch ctl d)) = .ccOther ch ctl d := by
  obtain ⟨hw, hl⟩ : ctl ≠ P.ccWaveNum ∧ ctl ≠ P.ccLayerNum := by
    simpa only [Instr.wellFormed, Bool.and_eq_true, bne_iff_ne] using h
  exact decode_ccOther P ch d hw hl
end

/-- Settles O2: the encoder writes the address that the address map gives the instruction's location, and the fields of an
event in their places. -/
theorem decodeEncode : Obligations.DecodeEncode := by
  unfold Obligations.DecodeEncode
  intro P i hP h
  obtain ⟨-, -, -, -, -, -, -, -, hcc⟩ := hP
  cases i with
  | busMisaligned rw a w => exact decode_encode_busMisaligned h
  | rd a => exact decodeBus_read P a 0 h
  | ctrlSoftReset w => exact (decode_ctrl_write P w).trans (decodeCtrl_of_softReset h)
  | ctrlStart w =>
    obtain ⟨h1, h0⟩ : w.getLsbD 1 = false ∧ w.getLsbD 0 = true := by
      simpa only [Instr.wellFormed, Bool.and_eq_true, Bool.not_eq_true'] using h
    exact (decode_ctrl_write P w).trans (by rw [decodeCtrl, h1, h0]; rfl)
  | ctrlStop w =>
    obtain ⟨h1, h0⟩ : w.getLsbD 1 = false ∧ w.getLsbD 0 = false := by
      simpa only [Instr.wellFormed, Bool.and_eq_true, Bool.not_eq_true'] using h
    exact (decode_ctrl_write P w).trans (by rw [decodeCtrl, h1, h0]; rfl)
  | statusW1c w => exact decode_status_write P w
  | evPush w => exact decode_event_write P w
  | render w => exact decode_render_write P w
  | cntClear c w => exact decode_counter_write P w c
  | wrSampleRate w | wrChannels w | wrMode w | wrDelayLen w | wrQuantBits w | wrVelT w => exact decode_ireg_write P w _
  | wrF32MasterVolume w | wrF32VoiceGain w | wrF32OscGain w | wrF32DelayGain w | wrF32DelayFeedback w | wrF32DelayMix w
  | wrF32VibRate w | wrF32VibDepth w | wrF32VibOnset w | wrF32TremRate w | wrF32TremDepth w | wrF32AttackS w
  | wrF32DecayS w | wrF32Sustain w | wrF32ReleaseS w | wrF32EnvFloor w | wrF32FiltAFast w | wrF32FiltASlow w
  | wrF32DcBlock w | wrF32Pan w | wrF32VelG0 w | wrF32VelG1 w | wrF32VelG2 w | wrF32VelG3 w | wrF32VelGmin w
  | wrF32VelGmax w => exact decode_freg_write P _ w
  | wrPresetCount p w => exact decode_encode_presetCount h
  | wrPresetOct p o w => exact decode_encode_presetField .oct h
  | wrPresetDuty p o w => exact decode_encode_presetField .duty h
  | wrPresetVol p o w => exact decode_encode_presetField .vol h
  | wrPresetDetune p o w => exact decode_encode_presetField .detune h
  | wrIgnored a w => exact decode_encode_wrIgnored h
  | evReserved e => exact decode_encode_evReserved h
  | evBaddata e => exact decode_encode_evBaddata h
  | noteOff ch k rv => exact decode_noteOff P ch k rv
  | noteOn ch k vel => exact decode_noteOn P ch k vel
  | ccWave ch d => exact decode_ccWave P ch d
  | ccLayer ch d => exact decode_ccLayer P ch d hcc.symm
  | ccOther ch ctl d => exact decode_encode_ccOther h

/-! ## Encoding what was decoded -/

theorem encode_decodeCtrl (P : Params) (w : Word) :
    (decodeCtrl w).wellFormed P = true ∧ encode P (decodeCtrl w) = writeTo 0x10 w := by
  unfold decodeCtrl
  split
  case isTrue h1 => exact ⟨h1, rfl⟩
  case isFalse h1 =>
  have h1 := Bool.eq_false_of_not_eq_true h1
  split
  case isTrue h0 => exact ⟨by rw [Instr.wellFormed, h1, h0]; rfl, rfl⟩
  case isFalse h0 => exact ⟨by rw [Instr.wellFormed, h1, Bool.eq_false_of_not_eq_true h0]; rfl, rfl⟩

/-- A write decodes to a well-formed instruction whose word is that write. -/
theorem encode_decodeWrite {P : Params} {a : BusAddr} (ha : aligned a = true) (w : Word) :
    (decodeWrite P a w).wellFormed P = true ∧ encode P (decodeWrite P a w) = .bus (busWord true a w) := by
  obtain ⟨hign, hnot⟩ | ⟨hign, -, haddr, hpresent⟩ := writeAt_locate (P := P) (beq_iff_eq.mp ha)
  · rw [decodeWrite_of_ignoresWrites w rfl hign, Instr.wellFormed, ha, hnot]
    exact ⟨rfl, rfl⟩
  · rw [← writeTo_toNat, ← haddr, decodeWrite]
    generalize locate P a = l at hign hpresent
    cases l with
    | id | cfg0 | cfg1 | cfg2 | frameCount | delayRd | delayWr | visWr | sel | voice | osc | vis | dly | unmapped =>
      cases hign
    | ctrl => exact encode_decodeCtrl P w
    | status | event | renderReq | dropCount | ignCount | qovfCount => exact ⟨rfl, rfl⟩
    | int r => cases r <;> exact ⟨rfl, rfl⟩
    | flt r => cases r <;> exact ⟨rfl, rfl⟩
    | presetCount p => exact ⟨decide_eq_true hpresent, rfl⟩
    | presetField p o f =>
      obtain ⟨hp, ho⟩ := hpresent
      have hwf : (decide (p.toNat < P.numPresets) && decide (o.toNat < P.oscMax)) = true := by
        rw [decide_eq_true hp, decide_eq_true ho, Bool.and_self]
      cases f <;> exact ⟨hwf, rfl⟩

theorem encode_decodeEvent (P : Params) (e : EventWord) :
    (decode P (.event e)).wellFormed P = true ∧ encode P (decode P (.event e)) = .event e := by
  by_cases ht : knownType (e.extractLsb' 20 4) = true
  case neg =>
    rw [decode_event_of_decodeEvent (decodeEvent_of_not_knownType P ht)]
    exact ⟨by simpa [Event.toInstr, Instr.wellFormed] using ht, rfl⟩
  by_cases hb : e.getLsbD 15 = true ∨ e.getLsbD 7 = true
  case pos =>
    rw [decode_event_of_decodeEvent (decodeEvent_of_badData P ht hb)]
    exact ⟨by simpa [Event.toInstr, Instr.wellFormed, ht] using hb, rfl⟩
  have hfields := eventWord_fields hb
  rcases (knownType_iff _).mp ht with ht | ht | ht
  · rw [decode_event_of_decodeEvent (decodeEvent_noteOff P hb ht)]
    exact ⟨rfl, congrArg Code.event (by rw [← ht]; exact hfields)⟩
  · rw [decode_event_of_decodeEvent (decodeEvent_noteOn P hb ht)]
    exact ⟨rfl, congrArg Code.event (by rw [← ht]; exact hfields)⟩
  by_cases hw : e.extractLsb' 8 7 = P.ccWaveNum
  · rw [decode_event_of_decodeEvent (decodeEvent_ccWave P hb ht hw)]
    exact ⟨rfl, congrArg Code.event (by rw [← ht, ← hw]; exact hfields)⟩
  by_cases hl : e.extractLsb' 8 7 = P.ccLayerNum
  · rw [decode_event_of_decodeEvent (decodeEvent_ccLayer P hb ht hw hl)]
    exact ⟨rfl, congrArg Code.event (by rw [← ht, ← hl]; exact hfields)⟩
  · rw [decode_event_of_decodeEvent (decodeEvent_ccOther P hb ht hw hl)]
    exact ⟨by simp [Event.toInstr, Instr.wellFormed, hw, hl], congrArg Code.event (by rw [← ht]; exact hfields)⟩

theorem encode_decodeBus (P : Params) (rw : Bool) (a : BusAddr) (w : Word) :
    (decode P (.bus (busWord rw a w))).wellFormed P = true ∧
    encode P (decode P (.bus (busWord rw a w))) = .bus (busWord rw a (if rw then w else 0)) := by
  change (decodeBus P _).wellFormed P = true ∧ encode P (decodeBus P _) = _
  cases ha : aligned a with
  | false =>
    rw [decodeBus_misaligned P rw a w ha, Instr.wellFormed, ha]
    cases rw <;> exact ⟨rfl, rfl⟩
  | true =>
    cases rw with
    | false =>
      rw [decodeBus_read P a w ha]
      exact ⟨ha, rfl⟩
    | true =>
      rw [decodeBus_write P a w ha]
      exact encode_decodeWrite ha w

/-- Settles O3: a transaction is the word of its fields, and each kind of it is encoded as it came. -/
theorem encodeDecode : Obligations.EncodeDecode := by
  unfold Obligations.EncodeDecode
  intro P c _
  cases c with
  | event e => exact encode_decodeEvent P e
  | bus T =>
    have h := encode_decodeBus P (busRw T) (busAddr T) (busData T)
    rw [busWord_fields] at h
    refine ⟨h.1, h.2.trans (congrArg Code.bus ?_)⟩
    cases hrw : busRw T with
    | true =>
      have hfields := busWord_fields T
      rwa [hrw] at hfields
    | false => rfl

end Sys2Proof

/-!
SUPPORT. What an instruction, a boundary, a frame and a step can do to the state, each said once: the invariants of the
block are read off these lists of cases.
-/

namespace Sys2Proof.Machine

/-! ## What an instruction can do -/

/-- A host access other than a reset or an accepted RENDER: it reaches neither the instance, nor the voices, nor the active
configuration, nor the RAMs, and puts a listed code into LAST_ERR if any. -/
structure HostAccess (s t : State) : Prop where
  params : t.params = s.params
  voices : t.voices = s.voices
  active : t.active = s.active
  mem : t.mem = s.mem
  lastErr : t.lastErr = s.lastErr ∨ t.lastErr ∈ lastErrCodes

/-- What an accepted RENDER of `n` frames asks (40_host_commands.md R262). -/
structure RenderAccepts (s : State) (n : Nat) : Prop where
  run : s.run = true
  idle : s.busy = false
  pos : 0 < n
  le : n ≤ s.params.nmax

/-- The effects an instruction can have. -/
inductive ExecEffect (i : Instr) (s t : State) : Prop where
  | access (h : HostAccess s t)
  | reset (w : Word) (hi : i = .ctrlSoftReset w) (ht : t = resetBlock s)
  | render (w : Word) (hi : i = .render w) (h : RenderAccepts s (renderFrames w))
      (ht : t = startRender (renderFrames w) s)
  | event (e : Event) (hi : i = e.toInstr) (ht : t = applyEvent e s)

section
variable {s t u : State}

theorem hostAccess_refl (s : State) : HostAccess s s := ⟨rfl, rfl, rfl, rfl, .inl rfl⟩

theorem HostAccess.ite {c : Prop} [Decidable c] (ht : HostAccess s t) (hu : HostAccess s u) :
    HostAccess s (if c then t else u) := by
  split
  · exact ht
  · exact hu

theorem hostAccess_withPend (R : Regs) (s : State) : HostAccess s (withPend R s) := ⟨rfl, rfl, rfl, rfl, .inl rfl⟩

theorem hostAccess_raise (e : ErrKind) (s : State) : HostAccess s (raise e s) :=
  ⟨rfl, rfl, rfl, rfl, .inr (errCode_mem e)⟩

theorem hostAccess_readLoc (l : Loc) (s : State) : HostAccess s (readLoc l s) :=
  HostAccess.ite ⟨rfl, rfl, rfl, rfl, .inl rfl⟩ ⟨rfl, rfl, rfl, rfl, .inl rfl⟩

theorem hostAccess_pushEvent (e : EventWord) (s : State) : HostAccess s (pushEvent e s) :=
  HostAccess.ite ⟨rfl, rfl, rfl, rfl, .inl rfl⟩ ⟨rfl, rfl, rfl, rfl, .inl rfl⟩

theorem hostAccess_clearCounter (c : Counter) (s : State) : HostAccess s (clearCounter c s) :=
  ⟨clearCounter_params c s, clearCounter_voices c s, clearCounter_active c s, clearCounter_mem c s,
    .inl (clearCounter_lastErr c s)⟩
end

section
variable (w : Word) {s : State}

theorem exec_render_not_running (hrun : s.run = false) : exec (.render w) s = .next (raise .renderNotRunning s) :=
  congrArg Host.Outcome.next (if_pos (by rw [hrun]; rfl))

theorem exec_render_running (hrun : s.run = true) : exec (.render w) s =
    .next (if s.busy then raise .renderBusy s
      else if renderFrames w = 0 ∨ s.params.nmax < renderFrames w then raise .renderBadCount s
      else startRender (renderFrames w) s) :=
  congrArg Host.Outcome.next (if_neg (by rw [hrun]; exact Bool.false_ne_true))

theorem exec_render_busy (hrun : s.run = true) (hbusy : s.busy = true) :
    exec (.render w) s = .next (raise .renderBusy s) := by
  rw [exec_render_running w hrun, if_pos hbusy]

theorem exec_render_badCount (hrun : s.run = true) (hidle : s.busy = false)
    (hn : renderFrames w = 0 ∨ s.params.nmax < renderFrames w) :
    exec (.render w) s = .next (raise .renderBadCount s) := by
  rw [exec_render_running w hrun, hidle, if_neg Bool.false_ne_true, if_pos hn]

theorem exec_render_accepted (h : RenderAccepts s (renderFrames w)) :
    exec (.render w) s = .next (startRender (renderFrames w) s) := by
  obtain ⟨hrun, hidle, hpos, hle⟩ := h
  rw [exec_render_running w hrun, hidle, if_neg Bool.false_ne_true, if_neg (by omega)]

theorem execEffect_render (s : State) : Answers (exec (.render w) s) (ExecEffect (.render w) s) := by
  cases hrun : s.run with
  | false => exact ⟨_, exec_render_not_running w hrun, .access (hostAccess_raise _ s)⟩
  | true =>
  cases hbusy : s.busy with
  | true => exact ⟨_, exec_render_busy w hrun hbusy, .access (hostAccess_raise _ s)⟩
  | false =>
  by_cases hn : renderFrames w = 0 ∨ s.params.nmax < renderFrames w
  case pos => exact ⟨_, exec_render_badCount w hrun hbusy hn, .access (hostAccess_raise _ s)⟩
  case neg =>
    have haccepts : RenderAccepts s (renderFrames w) := ⟨hrun, hbusy, by omega, by omega⟩
    exact ⟨_, exec_render_accepted w haccepts, .render w rfl haccepts rfl⟩
end

/-- Every instruction completes, with one of the effects (60_exceptions.md R604). -/
theorem exec_effect (i : Instr) (s : State) : Answers (exec i s) (ExecEffect i s) := by
  cases i with
  | busMisaligned rw a w =>
    refine ⟨_, exec_busMisaligned rw a w s, .access ⟨rfl, rfl, rfl, rfl, .inr ?_⟩⟩
    exact errCode_mem .busMisaligned
  | rd a => exact ⟨_, rfl, .access (hostAccess_readLoc _ s)⟩
  | ctrlSoftReset w => exact ⟨_, rfl, .reset w rfl rfl⟩
  | ctrlStart w =>
    exact ⟨_, rfl, .access (.ite ⟨rfl, rfl, rfl, rfl, .inl rfl⟩
      (.ite (hostAccess_raise _ s) (.ite (hostAccess_raise _ s) ⟨rfl, rfl, rfl, rfl, .inl rfl⟩)))⟩
  | ctrlStop w =>
    exact ⟨_, rfl, .access (.ite (hostAccess_refl s)
      (.ite ⟨rfl, rfl, rfl, rfl, .inl rfl⟩ ⟨rfl, rfl, rfl, rfl, .inl rfl⟩))⟩
  | statusW1c w => exact ⟨_, rfl, .access ⟨rfl, rfl, rfl, rfl, .inl rfl⟩⟩
  | evPush w => exact ⟨_, rfl, .access (hostAccess_pushEvent _ s)⟩
  | render w => exact execEffect_render w s
  | cntClear c w => exact ⟨_, rfl, .access (hostAccess_clearCounter c s)⟩
  | wrSampleRate w | wrChannels w => exact ⟨_, rfl, .access (.ite (hostAccess_refl s) (hostAccess_withPend _ s))⟩
  | wrVelT w => exact ⟨_, rfl, .access (.ite (hostAccess_withPend _ s) (hostAccess_refl s))⟩
  | wrDelayLen w => exact ⟨_, rfl, .access ⟨rfl, rfl, rfl, rfl, .inl rfl⟩⟩
  | wrMode w | wrQuantBits w => exact ⟨_, rfl, .access (hostAccess_withPend _ s)⟩
  | wrF32MasterVolume w | wrF32VoiceGain w | wrF32OscGain w | wrF32DelayGain w | wrF32DelayFeedback w | wrF32DelayMix w
  | wrF32VibRate w | wrF32VibDepth w | wrF32VibOnset w | wrF32TremRate w | wrF32TremDepth w | wrF32AttackS w
  | wrF32DecayS w | wrF32Sustain w | wrF32ReleaseS w | wrF32EnvFloor w | wrF32FiltAFast w | wrF32FiltASlow w
  | wrF32DcBlock w | wrF32Pan w | wrF32VelG0 w | wrF32VelG1 w | wrF32VelG2 w | wrF32VelG3 w | wrF32VelGmin w
  | wrF32VelGmax w => exact ⟨_, rfl, .access (hostAccess_withPend _ s)⟩
  | wrPresetCount p w => exact ⟨_, rfl, .access (hostAccess_withPend _ s)⟩
  | wrPresetOct p o w | wrPresetDuty p o w | wrPresetVol p o w | wrPresetDetune p o w =>
    exact ⟨_, rfl, .access (hostAccess_withPend _ s)⟩
  | wrIgnored a w => exact ⟨_, rfl, .access (hostAccess_refl s)⟩
  | evReserved e => exact ⟨_, rfl, .event (.reserved e) rfl rfl⟩
  | evBaddata e => exact ⟨_, rfl, .event (.badData e) rfl rfl⟩
  | noteOff ch k rv => exact ⟨_, rfl, .event (.noteOff ch k rv) rfl rfl⟩
  | noteOn ch k vel => exact ⟨_, rfl, .event (.noteOn ch k vel) rfl rfl⟩
  | ccWave ch d => exact ⟨_, rfl, .event (.ccWave ch d) rfl rfl⟩
  | ccLayer ch d => exact ⟨_, rfl, .event (.ccLayer ch d) rfl rfl⟩
  | ccOther ch ctl d => exact ⟨_, rfl, .event (.ccOther ch ctl d) rfl rfl⟩

/-- What an instruction that led to `t` has done. -/
theorem execEffect_of_next {i : Instr} {s t : State} (h : exec i s = .next t) : ExecEffect i s t := by
  obtain ⟨t', hnext, heffect⟩ := exec_effect i s
  obtain rfl : t' = t := Host.Outcome.next.inj (hnext.symm.trans h)
  exact heffect

/-! ## What a step can do -/

/-- The effects a step can have on the state whose host input is taken off the list. -/
inductive StepEffect (s t : State) : Prop where
  | access (h : HostAccess s t)
  | reset (ht : t = resetBlock s)
  | render (n : Nat) (h : RenderAccepts s n) (ht : t = startRender n s)
  | event (e : Event) (ht : t = applyEvent e s)
  | engine (ht : t = engineStep s)

theorem step_effect {s t : State} (h : step s = .next t) : ∃ hs, StepEffect (withHost hs s) t := by
  obtain ⟨hs, ⟨T, hexec⟩ | ht | ht⟩ := step_cases h
  · refine ⟨hs, ?_⟩
    cases execEffect_of_next hexec with
    | access h => exact .access h
    | reset w hi ht => exact .reset ht
    | render w hi h ht => exact .render _ h ht
    | event e hi ht => exact .event e ht
  · exact ⟨hs, .reset ht⟩
  · exact ⟨hs, .engine ht⟩

section
variable {s : State} {rest : List HostInput}

theorem step_txn {T : BusWord} (h : s.host = .txn T :: rest) :
    step s = exec (decode s.params (.bus T)) (withHost rest s) := by
  rw [step, h]
  rfl

theorem step_idle (h : s.host = .idle :: rest) : step s = .next (engineStep (withHost rest s)) := by
  rw [step, h]

theorem step_no_input (h : s.host = []) : step s = .next (engineStep s) := by
  rw [step, h]

theorem engineStep_eq (s : State) : engineStep s = if 0 < s.framesLeft then frameStep s else s :=
  if_congr decide_eq_true_iff rfl rfl

theorem withHost_host_self (s : State) : withHost s.host s = s := rfl
end

/-- Settles O6: the transaction at the head of the inputs is decoded and executed. -/
theorem stepRunsTransaction : Obligations.StepRunsTransaction := by
  unfold Obligations.StepRunsTransaction
  intro s T rest i hhost hdecode
  rw [step_txn hhost, hdecode]

/-- Settles O7: without a transaction the step is the engine's, on the inputs that are left. -/
theorem stepRunsEngine : Obligations.StepRunsEngine := by
  unfold Obligations.StepRunsEngine
  refine ⟨engineStep_eq, fun s hhost => ?_⟩
  obtain hnil | ⟨rest, hidle⟩ := hhost
  · have hself : withHost s.host.tail s = s := by rw [hnil, List.tail_nil, ← hnil, withHost_host_self]
    rw [step_no_input hnil, engineStep_eq, hself]
  · rw [step_idle hidle, engineStep_eq, hidle]
    rfl

/-- Settles O8: every instruction has one of the listed effects, and every other step is a reset or the engine's. -/
theorem nothingStops : Obligations.NothingStops := by
  unfold Obligations.NothingStops
  have hexec (i : Instr) (s : State) : ∃ t, exec i s = .next t := by
    obtain ⟨t, hnext, -⟩ := exec_effect i s
    exact ⟨t, hnext⟩
  refine ⟨hexec, fun s => ?_⟩
  match hhost : s.host with
  | [] => exact ⟨_, step_no_input hhost⟩
  | .idle :: rest => exact ⟨_, step_idle hhost⟩
  | .hardReset :: rest => exact ⟨_, step_hardReset hhost⟩
  | .txn T :: rest => rw [step_txn hhost]; exact hexec _ _

/-! ## What a boundary can do -/

/-- `s` with the fields that events can change, and the queue, as `t` has them (41_voice_allocator.md R300). -/
def withEventFields (t s : State) : State :=
  { s with
    queue := t.queue
    voices := t.voices
    waveSel := t.waveSel
    layerSel := t.layerSel
    dropCount := t.dropCount
    ignCount := t.ignCount
    draws := t.draws }

theorem withEventFields_withEventFields (u t s : State) :
    withEventFields u (withEventFields t s) = withEventFields u s := rfl

theorem applyEvent_state (e : Event) (s : State) : applyEvent e s = withEventFields (applyEvent e s) s := by
  cases e with
  | reserved | badData | noteOff | ccOther => rfl
  | noteOn ch k vel =>
    simp only [applyEvent]
    cases h : noteTarget s k with
    | none => rw [noteOn_none h]; rfl
    | some v => rw [noteOn_some h]; rfl
  | ccWave ch d =>
    simp only [applyEvent, selectWave]
    split <;> rfl
  | ccLayer ch d =>
    simp only [applyEvent, selectLayer]
    split <;> rfl

/-- A boundary is the latch and what the events change. -/
theorem boundary_state (s : State) : boundary s = withEventFields (boundary s) (latch s) :=
  drain_induction (Q := fun t => t = withEventFields t (latch s))
    (fun _ q ht => congrArg (withQueue q) ht)
    (fun t e ht => by
      calc applyEvent e t = withEventFields (applyEvent e t) t := applyEvent_state e t
        _ = withEventFields (applyEvent e t) (withEventFields t (latch s)) := by rw [← ht]
        _ = withEventFields (applyEvent e t) (latch s) := withEventFields_withEventFields _ _ _)
    s.queue.length (latch s) rfl

theorem boundary_queue (s : State) : (boundary s).queue = [] := (boundaryRunsEvents s).2

/-- Settles O22: an accepted RENDER is the boundary with the progress set, and the boundary empties the queue. -/
theorem renderAccepted : Obligations.RenderAccepted := by
  unfold Obligations.RenderAccepted
  intro w s n hrun hidle hpos hle
  refine ⟨_, exec_render_accepted w ⟨hrun, hidle, hpos, hle⟩, rfl, ?_⟩
  calc startRender n s = startRender n s := rfl
    _ = { withEventFields (boundary s) (latch s) with queue := [], framesLeft := n, frameIdx := 0 } := by
      rw [startRender, ← boundary_queue s]
      exact congrArg (fun t : State => { t with framesLeft := n, frameIdx := 0 }) (boundary_state s)

/-! ## What a frame can do -/

/-- `s` with the fields that the channel-samples of a frame can change as `t` has them (45_delay_output.md R530). -/
def withSampleFields (t s : State) : State :=
  { s with
    mem := t.mem
    delayRd := t.delayRd
    delayWr := t.delayWr
    visWr := t.visWr
    out := t.out }

theorem channelSamples_state (n ch : Nat) (x0 x1 : F32) (s : State) :
    channelSamples n ch x0 x1 s = withSampleFields (channelSamples n ch x0 x1 s) s := by
  induction n generalizing ch s with
  | zero => rfl
  | succ n ih =>
    rw [channelSamples]
    generalize (if ch = 0 then x0 else x1) = x
    refine (ih (ch + 1) (channelSample ch x s)).trans ?_
    exact (congrArg (withSampleFields (channelSamples n (ch + 1) x0 x1 (channelSample ch x s)))
      (channelSample_state ch x s) :)

theorem frameSamples_state (s : State) :
    frameSamples s = withSampleFields (frameSamples s) (withVoices (frameSamples s).voices s) := by
  have hsamples : frameSamples s = withSampleFields (frameSamples s) (mix s).2.2 := channelSamples_state ..
  have hvoices : (frameSamples s).voices = (mix s).2.2.voices := (congrArg State.voices hsamples :)
  rw [hvoices]
  refine hsamples.trans (congrArg (withSampleFields (frameSamples s)) ?_)
  rw [mix_state]
  rfl

theorem frameStep_of_last {s : State} (h : s.framesLeft - 1 = 0) :
    frameStep s = renderDone (countFrame (frameSamples s)) :=
  if_pos (by rw [countFrame_framesLeft, channelSamples_framesLeft]; exact h)

theorem frameStep_of_more {s : State} (h : s.framesLeft - 1 ≠ 0) : frameStep s = countFrame (frameSamples s) :=
  if_neg (by rw [countFrame_framesLeft, channelSamples_framesLeft]; exact h)

/-- What a frame leaves of the state: it changes the voices, what its channel-samples write, and the progress; the last one
of a render also makes a deferred STOP take effect (45_delay_output.md R530, R531). -/
theorem frameStep_state (s : State) : frameStep s =
    { withSampleFields (frameSamples s) (withVoices (frameSamples s).voices s) with
      frameCount := s.frameCount + 1
      frameIdx := s.frameIdx + 1
      framesLeft := s.framesLeft - 1
      run := s.run && !(s.framesLeft - 1 == 0 && s.stopPending)
      stopPending := s.stopPending && !(s.framesLeft - 1 == 0) } := by
  have hcount : countFrame (frameSamples s) =
      countFrame (withSampleFields (frameSamples s) (withVoices (frameSamples s).voices s)) :=
    congrArg countFrame (frameSamples_state s)
  by_cases h : s.framesLeft - 1 = 0
  case pos =>
    rw [frameStep_of_last h, hcount, renderDone]
    cases hstop : s.stopPending <;> simp [h, hstop, countFrame, withSampleFields, withVoices]
  case neg =>
    rw [frameStep_of_more h, hcount]
    simp [h, countFrame, withSampleFields, withVoices]

end Sys2Proof.Machine

/-!
SUPPORT. What frames, boundaries and steps keep: the errors, the active configuration, the form of the memory, and the
independence of a frame from what the host writes during a render.
-/

namespace Sys2Proof.Machine

/-! ## Errors and the active configuration -/

/-- Settles O49: neither a frame nor a boundary reaches the flags, and every instruction that changes LAST_ERR is a host
access or a reset. -/
theorem engineRaisesNothing : Obligations.EngineRaisesNothing := by
  unfold Obligations.EngineRaisesNothing
  refine ⟨fun s => ?_, fun s => ?_, fun i s t hexec hne => ?_⟩
  · rw [frameStep_state]
    exact ⟨rfl, rfl, rfl, rfl⟩
  · rw [boundary_state]
    exact ⟨rfl, rfl, rfl, rfl⟩
  · cases execEffect_of_next hexec with
    | access h => exact h.lastErr.resolve_left hne
    | reset w hi ht => rw [ht]; exact List.mem_cons_self
    | render w hi h ht =>
      rw [ht, startRender, boundary_state] at hne
      exact absurd rfl hne
    | event e hi ht =>
      rw [ht, applyEvent_state] at hne
      exact absurd rfl hne

theorem frameStep_active (s : State) : (frameStep s).active = s.active := by rw [frameStep_state]; rfl

theorem engineStep_active (s : State) : (engineStep s).active = s.active := by
  rw [engineStep_eq]
  split
  · exact frameStep_active s
  · rfl

theorem startRender_active (n : Nat) (s : State) : (startRender n s).active = s.pend := by
  rw [startRender, boundary_state]
  rfl

/-- Settles O27: of the effects a step can have only an accepted RENDER and a reset reach the active copy. -/
theorem activeCopyChanges : Obligations.ActiveCopyChanges := by
  unfold Obligations.ActiveCopyChanges
  intro s t hstep hne
  match hhost : s.host with
  | [] =>
    rw [step_no_input hhost] at hstep
    rw [← Host.Outcome.next.inj hstep, engineStep_active] at hne
    exact absurd rfl hne
  | .idle :: rest =>
    rw [step_idle hhost] at hstep
    rw [← Host.Outcome.next.inj hstep, engineStep_active] at hne
    exact absurd rfl hne
  | .hardReset :: rest =>
    rw [step_hardReset hhost] at hstep
    exact .inr (.inr ⟨rest, rfl, by rw [← Host.Outcome.next.inj hstep]; rfl⟩)
  | .txn T :: rest =>
    rw [step_txn hhost] at hstep
    cases execEffect_of_next hstep with
    | access h => exact absurd h.active hne
    | reset w hi ht => exact .inr (.inl ⟨T, rest, w, rfl, hi, by rw [ht]; rfl⟩)
    | render w hi h ht =>
      exact .inl ⟨T, rest, w, rfl, hi, h.run, h.idle, h.pos, h.le, by rw [ht, startRender_active]; rfl⟩
    | event e hi ht =>
      rw [ht, applyEvent_active] at hne
      exact absurd rfl hne

/-! ## The form of the memory -/

theorem channelSamples_mem_wf (n ch : Nat) (x0 x1 : F32) {s : State} (h : s.mem.wf = true) :
    (channelSamples n ch x0 x1 s).mem.wf = true := by
  induction n generalizing ch s with
  | zero => exact h
  | succ n ih => exact ih (ch + 1) (channelSample_mem_wf ch h)

theorem frameSamples_mem_wf {s : State} (h : s.mem.wf = true) : (frameSamples s).mem.wf = true :=
  channelSamples_mem_wf _ 0 _ _ (by rw [mix_state]; exact h)

theorem engineStep_mem_wf {s : State} (h : s.mem.wf = true) : (engineStep s).mem.wf = true := by
  rw [engineStep_eq]
  split
  · rw [frameStep_state]
    exact frameSamples_mem_wf h
  · exact h

/-- Settles O55: only the channel-samples of a frame write to the memory, and a reset empties it. -/
theorem memoryFormKept : Obligations.MemoryFormKept := by
  unfold Obligations.MemoryFormKept
  intro s t hwf hstep
  obtain ⟨hs, heffect⟩ := step_effect hstep
  cases heffect with
  | access h => rw [h.mem]; exact hwf
  | reset ht => rw [ht]; rfl
  | render n h ht =>
    rw [ht, startRender, boundary_state]
    exact hwf
  | event e ht => rw [ht, applyEvent_mem]; exact hwf
  | engine ht => rw [ht]; exact engineStep_mem_wf hwf

/-! ## Frames and what the host writes -/

/-- `s` with other contents of what the host can write during a render: the pending configuration, the queue and
`dlen_dirty` (20_memory.md R165). -/
def withHostWrites (R : Regs) (q : List EventWord) (b : Bool) (s : State) : State :=
  { s with pend := R, queue := q, dlenDirty := b }

section
variable (R : Regs) (q : List EventWord) (b : Bool)

theorem output_withHostWrites (x : F32) (s : State) : output x (withHostWrites R q b s) =
    ((output x s).1, withHostWrites R q b (output x s).2) := by
  cases hd : s.active.delayActive with
  | true => rw [output_active (s := withHostWrites R q b s) hd, output_active hd]; rfl
  | false => rw [output_bypass (s := withHostWrites R q b s) hd, output_bypass hd]; rfl

theorem channelSample_withHostWrites (ch : Nat) (x : F32) (s : State) :
    channelSample ch x (withHostWrites R q b s) = withHostWrites R q b (channelSample ch x s) := by
  cases ch with
  | zero => rw [channelSample_zero, channelSample_zero, output_withHostWrites]; rfl
  | succ ch => rw [channelSample_succ, channelSample_succ, output_withHostWrites]; rfl

theorem channelSamples_withHostWrites (n ch : Nat) (x0 x1 : F32) (s : State) :
    channelSamples n ch x0 x1 (withHostWrites R q b s) = withHostWrites R q b (channelSamples n ch x0 x1 s) := by
  induction n generalizing ch s with
  | zero => rfl
  | succ n ih => rw [channelSamples, channelSamples, channelSample_withHostWrites, ih]

theorem frameSamples_withHostWrites (s : State) :
    frameSamples (withHostWrites R q b s) = withHostWrites R q b (frameSamples s) :=
  channelSamples_withHostWrites R q b s.active.channels.toNat 0 (mix s).1 (mix s).2.1 (mix s).2.2
end

/-- Settles O28: MIX and the channel-samples read nothing that the host writes during a render. -/
theorem framesIgnoreHostWrites : Obligations.FramesIgnoreHostWrites := by
  unfold Obligations.FramesIgnoreHostWrites
  intro s R q b
  change frameStep (withHostWrites R q b s) = withHostWrites R q b (frameStep s)
  rw [frameStep_state, frameStep_state s, frameSamples_withHostWrites]
  rfl

end Sys2Proof.Machine

/-!
SUPPORT. The unmapped addresses of the map (20_memory.md R152, R153).
-/

namespace Sys2Proof

section
variable (P : Params)

/-- An aligned address outside the listed ranges and windows names nothing. -/
theorem locate_outside {n : Nat} (hn : n < 2 ^ 20) (hcontrol : 0x40 ≤ n) (hconfig : n < 0x100 ∨ 0x180 ≤ n)
    (hpreset : n < 0x800 ∨ 0x1000 ≤ n) (hvoice : n < 0x1000 ∨ 0x1000 + 0x20 * P.voiceMax ≤ n)
    (hosc : n < 0x4000 ∨ 0x4000 + 0x200 * P.voiceMax ≤ n ∨ P.oscMax ≤ n % 0x200 / 0x40)
    (hvis : n < 0x8000 ∨ 0x8000 + 4 * P.visCap ≤ n) (hdly : n < 0x40000 ∨ 0x40000 + 4 * P.delayCap ≤ n) :
    locate P (BitVec.ofNat 20 n) = .unmapped := by
  simp only [locate, toNat_ofNat_of_lt hn]
  split
  case isTrue => rfl
  case isFalse ha =>
    rw [if_neg (by omega), if_neg (by omega), if_neg (by omega), if_neg (by omega)]
    split
    case isTrue hslots => exact if_neg (by omega)
    case isFalse => rw [if_neg (by omega), if_neg (by omega)]

/-- In the preset windows an address names nothing when its preset or its slot does not exist, and between COUNT and the
slots (10_state.md R107). -/
theorem locate_preset_unmapped {n : Nat} (ha : n % 4 = 0) (hlo : 0x800 ≤ n) (hhi : n < 0x1000)
    (h : P.numPresets ≤ n / 0x100 % 8 ∨ (n / 0x80 % 2 = 1 ∧ P.oscMax ≤ n / 0x10 % 8) ∨
      (n / 0x80 % 2 = 0 ∧ n % 0x100 ≠ 0)) : locate P (BitVec.ofNat 20 n) = .unmapped := by
  have hn : n < 2 ^ 20 := by omega
  have hpreset := extractLsb'_busAddr (start := 8) (len := 3) (k := 0x100) (m := n / 0x100 % 8) hn rfl (by omega)
  have hslot := extractLsb'_busAddr (start := 4) (len := 3) (k := 0x10) (m := n / 0x10 % 8) hn rfl (by omega)
  have hlow : ((BitVec.ofNat 20 n).extractLsb' 0 8).toNat = n % 0x100 := by
    rw [BitVec.extractLsb'_toNat, toNat_ofNat_of_lt hn, Nat.shiftRight_zero]
  have hslots : (BitVec.ofNat 20 n).getLsbD 7 = decide (n / 0x80 % 2 = 1) := getLsbD_busAddr (by omega)
  rw [locate_preset_window P ha hlo hhi]
  simp only [locatePreset, hpreset, hslot, hslots, decide_eq_true_eq,
    toNat_ofNat_of_lt (show n / 0x100 % 8 < 2 ^ 3 by omega), toNat_ofNat_of_lt (show n / 0x10 % 8 < 2 ^ 3 by omega)]
  rcases h with hp | ⟨hbit, ho⟩ | ⟨hbit, hne⟩
  · exact if_neg (by omega)
  · rw [if_pos hbit, if_neg (show ¬ n / 0x10 % 8 < P.oscMax by omega), ite_self]
  · have hzero : (BitVec.ofNat 20 n).extractLsb' 0 8 ≠ 0 := fun h0 => hne (by rw [← hlow, h0]; rfl)
    rw [if_neg (show ¬ n / 0x80 % 2 = 1 by omega), if_neg hzero, ite_self]
end

/-- Settles O5: the windows by their `locate` lemmas, the rest by the two lemmas on what the map does not list. -/
theorem addressMapWindows : Obligations.AddressMapWindows := by
  unfold Obligations.AddressMapWindows
  intro P hP
  obtain ⟨hvoice, hosc, hpresets, hdelay, hvis, -⟩ := id hP
  refine ⟨fun p hp => locate_presetCount P hP hp, fun p o f hp ho hf => locate_presetField P hP hp ho hf,
    fun v j hv hj => locate_voice P hP hv hj, fun v o j hv ho hj => locate_osc P hP hv ho hj,
    fun i hi => locate_vis P hP hi, fun i hi => locate_dly P hP hi, fun p j hp hp8 hj => ?preset,
    fun p j hp hj1 hj => ?between, fun p o f hp ho ho8 hf => ?slot, fun v j hv hv' hj => ?_,
    fun v o j h hv ho hj => ?_, fun i hi hi' => ?_, fun i hi hi' => ?_, fun n ha hn => ?_⟩
  case preset => exact locate_preset_unmapped P (by omega) (by omega) (by omega) (.inl (by omega))
  case between => exact locate_preset_unmapped P (by omega) (by omega) (by omega) (.inr (.inr (by omega)))
  case slot => exact locate_preset_unmapped P (by omega) (by omega) (by omega) (.inr (.inl (by omega)))
  all_goals apply locate_outside P <;> omega

/-- Settles O1: the decoder on the words. -/
theorem sampleWordsDecode : Obligations.SampleWordsDecode := by
  unfold Obligations.SampleWordsDecode
  decide

end Sys2Proof

/-!
SUPPORT. Reads, STOP, a refused RENDER, the write of a preset field, and the reset state's invariants.
-/

namespace Sys2Proof.Machine

/-! ## Reads -/

/-- Settles O12: the two branches of `readLoc`. -/
theorem readResult : Obligations.ReadResult := by
  unfold Obligations.ReadResult
  intro a w s ha
  refine ⟨decodeBus_read s.params a w ha, fun he hbusy => ?draw, fun hexact => ?word⟩
  case draw => exact congrArg Host.Outcome.next (if_pos (by rw [he, hbusy]; rfl))
  case word =>
    refine congrArg Host.Outcome.next (if_neg ?_)
    rw [Bool.and_eq_true]
    rintro ⟨he, hbusy⟩
    rcases hexact with h | h
    · exact Bool.false_ne_true (h.symm.trans he)
    · exact Bool.false_ne_true (h.symm.trans hbusy)

/-! ## STOP and RENDER -/

theorem exec_ctrlStop_running (w : Word) {s : State} (hrun : s.run = true) : exec (.ctrlStop w) s =
    .next (if s.busy then { s with stopPending := true } else { s with run := false }) :=
  congrArg Host.Outcome.next (if_neg (by rw [hrun]; exact Bool.false_ne_true))

/-- Settles O17: RUN first, then BUSY. -/
theorem stopResult : Obligations.StopResult := by
  unfold Obligations.StopResult
  intro w s
  refine ⟨fun h1 h0 => ?decode, fun hrun => ?stopped, fun hrun hbusy => ?deferred, fun hrun hidle => ?stop⟩
  case decode => simp only [decode_ctrl_write, decodeCtrl, h1, h0, Bool.false_eq_true, if_false]
  case stopped => exact congrArg Host.Outcome.next (if_pos (by rw [hrun]; rfl))
  case deferred => rw [exec_ctrlStop_running w hrun, if_pos hbusy]
  case stop => rw [exec_ctrlStop_running w hrun, hidle, if_neg Bool.false_ne_true]

theorem ErrKind.flags_of_setsRenderErr {e : ErrKind} :
    e.setsRenderErr = true → e.setsBusErr = false ∧ e.setsCfgErr = false := by
  cases e <;> decide

/-- A RENDER error sets RENDER_ERR and its code (60_exceptions.md R601, R602). -/
theorem raise_render {e : ErrKind} (he : e.setsRenderErr = true) (s : State) :
    raise e s = { s with renderErr := true, lastErr := e.code } := by
  obtain ⟨hbus, hcfg⟩ := ErrKind.flags_of_setsRenderErr he
  rw [raise, he, hbus, hcfg, Bool.or_true, Bool.or_false, Bool.or_false]

/-- Settles O21: the checks of RENDER in their order. -/
theorem renderRefused : Obligations.RenderRefused := by
  unfold Obligations.RenderRefused
  intro w s n
  refine ⟨decode_render_write s.params w, fun hrun => ?notRunning, fun hrun hbusy => ?busy, fun hrun hidle hn => ?badCount⟩
  case notRunning => exact (exec_render_not_running w hrun).trans (congrArg _ (raise_render rfl s))
  case busy => exact (exec_render_busy w hrun hbusy).trans (congrArg _ (raise_render rfl s))
  case badCount => exact (exec_render_badCount w hrun hidle hn).trans (congrArg _ (raise_render rfl s))

/-! ## The write of a preset field -/

theorem exec_presetField_write (f : PField) (p o : BitVec 3) (w : Word) (s : State) :
    exec (f.write p o w) s = .next (writePField p o f w s) := by
  cases f <;> rfl

theorem Regs.preset_eq_getElem (R : Regs) {p : Nat} (hp : p < R.presets.length) : R.preset p = R.presets[p] :=
  List.getD_eq_getElem _ _ hp

theorem Preset.slot_eq_getElem (Q : Preset) {o : Nat} (ho : o < Q.slots.length) : Q.slot o = Q.slots[o] :=
  List.getD_eq_getElem _ _ ho

/-- A write to a slot's field replaces that field of one slot. -/
theorem writtenPreset_slots (o : Nat) (f : PField) (w : Word) {Q : Preset} (ho : o < Q.slots.length) :
    (writtenPreset o f w Q).slots[o]? =
      some (Q.slots[o].set f (writtenF32 (pfieldLo f) (pfieldHi f) (Q.slots[o].get f) w)) ∧
    ∀ q, q ≠ o → (writtenPreset o f w Q).slots[q]? = Q.slots[q]? := by
  refine ⟨?_, fun q hq => List.getElem?_modify_ne _ _ hq.symm⟩
  rw [writtenPreset, List.getElem?_modify_eq, List.getElem?_eq_getElem ho]
  rfl

/-- Settles O26: the write modifies one entry of the presets, in it one slot, in it one field. -/
theorem writePresetField : Obligations.WritePresetField := by
  unfold Obligations.WritePresetField
  intro f p o w s
  refine ⟨fun hp ho => decode_presetField_write s.params f w hp ho, fun hp ho => ?_⟩
  rw [Regs.preset_eq_getElem _ hp] at ho ⊢
  rw [Preset.slot_eq_getElem _ ho]
  obtain ⟨hslot, hother⟩ := writtenPreset_slots o.toNat f w ho
  refine ⟨_, exec_presetField_write f p o w s, fun q hq => List.getElem?_modify_ne _ _ hq.symm, _, ?preset,
    hother, _, hslot, ?field, fun g hg => WaveSpec.get_set_other _ _ hg⟩
  case preset =>
    rw [List.getElem?_modify_eq, List.getElem?_eq_getElem hp]
    rfl
  case field => rw [WaveSpec.get_set_same, writtenF32_eq]

/-! ## The reset state's invariants -/

theorem resetVoice_osc (P : Params) (o : Nat) : (resetVoice P).osc o = resetOsc := by
  rw [Voice.osc, resetVoice, List.getD_eq_getElem?_getD, List.getElem?_replicate]
  split <;> rfl

theorem tuned_resetOf (P : Params) : Tuned (State.resetOf P) := by
  intro v hv o ho
  rw [List.eq_of_mem_replicate hv, resetVoice_osc, resetVoice_osc]
  decide

theorem resetVoice_sounding (P : Params) : (resetVoice P).sounding = false := by
  rw [Voice.sounding, Voice.envState, resetVoice_osc]
  rfl

theorem quiet_resetOf (P : Params) : Quiet (State.resetOf P) :=
  ⟨fun v hv => by rw [List.eq_of_mem_replicate hv]; exact resetVoice_sounding P, fun i _ => memRead_nil .dly i⟩

theorem oneVoicePerKey_resetOf (P : Params) : OneVoicePerKey (State.resetOf P) := by
  rintro i j hij hj ⟨-, hactive, -⟩
  rw [voice_eq_getElem hj] at hactive
  have hreset : (State.resetOf P).voices[j] = resetVoice P := List.eq_of_mem_replicate (List.getElem_mem hj)
  rw [hreset] at hactive
  exact Bool.noConfusion hactive

/-- Settles O54: each invariant of the reset state. -/
theorem resetInvariants : Obligations.ResetInvariants := by
  unfold Obligations.ResetInvariants
  exact fun P hP => ⟨legal_resetOf hP, tuned_resetOf P, bounded_resetOf P, quiet_resetOf P, oneVoicePerKey_resetOf P⟩

end Sys2Proof.Machine

/-!
SUPPORT. The channel-samples of a frame and the frames of a render: the cursors, the emitted words, the bytes written
(45_delay_output.md sections 1 to 3).
-/

namespace Sys2Proof.Machine

/-! ## The delay line's cursors -/

theorem channelSamples_succ (n ch : Nat) (x0 x1 : F32) (s : State) : channelSamples (n + 1) ch x0 x1 s =
    channelSamples n (ch + 1) x0 x1 (channelSample ch (if ch = 0 then x0 else x1) s) := rfl

theorem frameSamples_eq (s : State) :
    frameSamples s = channelSamples s.active.channels.toNat 0 (mix s).1 (mix s).2.1 (mix s).2.2 := rfl

/-- With the delay active the `n` channel-samples of a frame move both cursors by `n`, whichever of them move at all. -/
theorem channelSamples_cursors_active (n ch : Nat) (x0 x1 : F32) {s : State}
    (hd : s.active.delayActive = true) (hn : 0 < n) :
    (channelSamples n ch x0 x1 s).delayRd = (s.delayRd + n) % s.params.delayCap ∧
    (channelSamples n ch x0 x1 s).delayWr = (s.delayWr + n) % s.params.delayCap := by
  induction n generalizing ch s with
  | zero => exact absurd hn (lt_irrefl 0)
  | succ n ih =>
    rw [channelSamples_succ]
    generalize (if ch = 0 then x0 else x1) = x
    obtain ⟨hrd, hwr⟩ := channelSample_cursors_active ch x hd
    obtain rfl | hpos := Nat.eq_zero_or_pos n
    · exact ⟨hrd, hwr⟩
    · obtain ⟨hrd', hwr'⟩ := ih (ch + 1) (s := channelSample ch x s) (by rwa [channelSample_active]) hpos
      rw [hrd', hwr', hrd, hwr, channelSample_params, Nat.mod_add_mod, Nat.mod_add_mod, Nat.add_right_comm s.delayRd,
        Nat.add_right_comm s.delayWr]
      exact ⟨rfl, rfl⟩

theorem channelSamples_cursors_bypass (n ch : Nat) (x0 x1 : F32) {s : State} (hd : s.active.delayActive = false) :
    (channelSamples n ch x0 x1 s).delayRd = s.delayRd ∧ (channelSamples n ch x0 x1 s).delayWr = s.delayWr := by
  induction n generalizing ch s with
  | zero => exact ⟨rfl, rfl⟩
  | succ n ih =>
    rw [channelSamples_succ]
    generalize (if ch = 0 then x0 else x1) = x
    obtain ⟨hrd, hwr⟩ := channelSample_cursors ch x s
    obtain ⟨hrd', hwr'⟩ := ih (ch + 1) (s := channelSample ch x s) (by rwa [channelSample_active])
    rw [hrd', hwr', hrd, hwr, output_bypass hd]
    exact ⟨rfl, rfl⟩

/-- A frame's effect on a cursor that was at `c`: CHANNELS words on with the delay active, none else
(45_delay_output.md R502, R503). -/
def movedCursor (s : State) (n c : Nat) : Nat := if s.active.delayActive then (c + n) % s.params.delayCap else c

theorem frameSamples_cursors {s : State} (hc : 0 < s.active.channels.toNat) :
    (frameSamples s).delayRd = movedCursor s s.active.channels.toNat s.delayRd ∧
    (frameSamples s).delayWr = movedCursor s s.active.channels.toNat s.delayWr := by
  rw [frameSamples_eq, mix_state, movedCursor, movedCursor]
  cases hd : s.active.delayActive with
  | true => exact channelSamples_cursors_active _ 0 _ _ (s := withVoices _ s) hd hc
  | false => exact channelSamples_cursors_bypass _ 0 _ _ (s := withVoices _ s) hd

/-- Cursors within the capacity that move together keep their distance. -/
theorem emod_sub_of_moved {c r w n : Nat} :
    ((((w + n) % c : Nat) : Int) - (((r + n) % c : Nat) : Int)) % (c : Int) = ((w : Int) - (r : Int)) % (c : Int) := by
  push_cast
  rw [← Int.sub_emod, add_sub_add_right_eq_sub]

theorem latch_distance (s : State) (hcap : 0 < s.params.delayCap) (hdirty : s.dlenDirty = true) :
    ((s.delayWr : Int) - ((latch s).delayRd : Int)) % (s.params.delayCap : Int) =
      (s.pend.delayLen.toNat : Int) % (s.params.delayCap : Int) := by
  have hseat : ((latch s).delayRd : Int) =
      ((s.delayWr : Int) - (s.pend.delayLen.toNat : Int)) % (s.params.delayCap : Int) := by
    rw [latch, if_pos hdirty, Int.toNat_of_nonneg (Int.emod_nonneg _ (by omega))]
  rw [hseat, Int.sub_emod_emod]
  congr 1
  omega

/-- Settles O41: the latch seats the read cursor by the length, and the channel-samples move both cursors alike. -/
theorem cursorDistance : Obligations.CursorDistance := by
  unfold Obligations.CursorDistance
  refine ⟨latch_distance, fun s hrd hwr => ?_⟩
  obtain ⟨-, -, hframeRd, hframeWr, -⟩ := frameStep_of_samples s
  rw [hframeRd, hframeWr]
  obtain hnone | hc := Nat.eq_zero_or_pos s.active.channels.toNat
  · rw [frameSamples_eq, hnone, mix_state]
    exact ⟨rfl, hrd, hwr⟩
  obtain ⟨hsampleRd, hsampleWr⟩ := frameSamples_cursors hc
  rw [hsampleRd, hsampleWr, movedCursor, movedCursor]
  cases s.active.delayActive with
  | true => exact ⟨emod_sub_of_moved, Nat.mod_lt _ (by omega), Nat.mod_lt _ (by omega)⟩
  | false => exact ⟨rfl, hrd, hwr⟩

/-! ## The emitted words and the visualization ring -/

theorem channelSamples_out (n ch : Nat) (x0 x1 : F32) (s : State) :
    ∃ ys, (channelSamples n ch x0 x1 s).out = s.out ++ ys ∧ ys.length = n := by
  induction n generalizing ch s with
  | zero => exact ⟨[], (List.append_nil _).symm, rfl⟩
  | succ n ih =>
    rw [channelSamples_succ]
    generalize (if ch = 0 then x0 else x1) = x
    obtain ⟨ys, hout, hlen⟩ := ih (ch + 1) (channelSample ch x s)
    refine ⟨(output x s).1 :: ys, ?_, congrArg Nat.succ hlen⟩
    rw [hout, channelSample_out, List.append_assoc, List.singleton_append]

/-- The channels after the first leave the visualization ring and its cursor (45_delay_output.md R522). -/
theorem channelSamples_vis_later (n ch : Nat) (x0 x1 : F32) {s : State} (hwf : s.mem.wf = true) :
    (channelSamples n (ch + 1) x0 x1 s).visWr = s.visWr ∧
    ∀ i, i < 0xE000 → memRead (channelSamples n (ch + 1) x0 x1 s).mem .vis i = memRead s.mem .vis i := by
  induction n generalizing ch s with
  | zero => exact ⟨rfl, fun _ _ => rfl⟩
  | succ n ih =>
    rw [channelSamples_succ, if_neg (Nat.succ_ne_zero ch)]
    obtain ⟨hvis, hmem⟩ := ih (ch + 1) (channelSample_mem_wf (x := x1) (ch + 1) hwf)
    refine ⟨hvis.trans ?_, fun i hi => (hmem i hi).trans ?_⟩
    · rw [channelSample_visWr, if_neg (Nat.succ_ne_zero ch)]
    · rw [channelSample_vis_eq _ _ hwf hi, if_neg (fun h => Nat.succ_ne_zero ch h.1)]

theorem channels_pos {R : Regs} (h : R.channels = 1 ∨ R.channels = 2) : 0 < R.channels.toNat := by
  rcases h with h | h
  · rw [h]; decide
  · rw [h]; decide

/-- A frame is channel 0's sample and those of the channels after it. -/
theorem frameSamples_first {s : State} {n : Nat} (hn : s.active.channels.toNat = n + 1) : frameSamples s =
    channelSamples n 1 (mix s).1 (mix s).2.1 (channelSample 0 (mix s).1 (mix s).2.2) := by
  rw [frameSamples_eq, hn, channelSamples_succ, if_pos rfl]

/-- Settles O45: channel 0's sample writes the word, and the later channels leave the ring. -/
theorem visualizationRing : Obligations.VisualizationRing := by
  unfold Obligations.VisualizationRing
  intro s hP hwf hvis hchannels
  obtain ⟨-, -, -, -, hcap, -⟩ := hP
  obtain ⟨n, hn⟩ := Nat.exists_eq_add_of_lt (channels_pos hchannels)
  rw [Nat.zero_add] at hn
  obtain ⟨hmem, hout, -⟩ := frameStep_of_samples s
  obtain ⟨vs, hmix⟩ : ∃ vs, (mix s).2.2 = withVoices vs s := ⟨_, mix_state s⟩
  have hframe : (frameStep s).visWr = (frameSamples s).visWr := by rw [frameStep_state]; rfl
  rw [hframe, hmem, hout, frameSamples_first hn, hmix]
  generalize (mix s).1 = x0
  generalize (mix s).2.1 = x1
  have hwf' : (withVoices vs s).mem.wf = true := hwf
  obtain ⟨hlater, hring⟩ := channelSamples_vis_later n 0 x0 x1 (channelSample_mem_wf (x := x0) 0 hwf')
  obtain ⟨ys, hwords, -⟩ := channelSamples_out n 1 x0 x1 (channelSample 0 x0 (withVoices vs s))
  refine ⟨?word, fun i hi hne => ?other, ?cursor⟩
  case word =>
    rw [hring _ (by omega), channelSample_vis_eq 0 x0 hwf' (by omega), if_pos ⟨rfl, rfl⟩, hwords, channelSample_out,
      List.append_assoc, withVoices_out, List.getElem?_append_right le_rfl, Nat.sub_self]
    rfl
  case other =>
    rw [hring i (by omega), channelSample_vis_eq 0 x0 hwf' (by omega), if_neg (fun h => hne h.2)]
    rfl
  case cursor => rw [hlater, channelSample_visWr, if_pos rfl]; rfl

/-! ## The bytes that a frame writes -/

/-- A byte address outside the word at byte address `w`. -/
def OutsideWord (a w : Nat) : Prop := a < w ∨ w + 3 < a

theorem output_read {x : F32} {s : State} {a : Nat}
    (hdly : s.active.delayActive = true → OutsideWord a (wordAddr .dly s.delayWr)) :
    (output x s).2.mem.read a = s.mem.read a := by
  cases hd : s.active.delayActive with
  | true =>
    rw [output_active hd, delayStep_state]
    exact Memory.read_writeWord_other _ _ (hdly hd)
  | false => rw [output_bypass hd]

/-- The bytes that a channel-sample can change: those of its DLY word, and of channel 0's VIS word. -/
theorem channelSample_read {ch : Nat} {x : F32} {s : State} {a : Nat}
    (hvis : ch = 0 → OutsideWord a (wordAddr .vis s.visWr))
    (hdly : s.active.delayActive = true → OutsideWord a (wordAddr .dly s.delayWr)) :
    (channelSample ch x s).mem.read a = s.mem.read a := by
  have houtput := output_read (x := x) hdly
  cases ch with
  | zero =>
    have hcursor : (output x s).2.visWr = s.visWr := by rw [output_state]
    rw [channelSample_zero, visStep_mem, emit_mem, emit_visWr, hcursor, ← houtput]
    exact Memory.read_writeWord_other _ _ (hvis rfl)
  | succ ch => rw [channelSample_succ, emit_mem, houtput]

/-- Settles O46: the words of the one or two channel-samples. -/
theorem frameMemory : Obligations.FrameMemory := by
  unfold Obligations.FrameMemory
  intro s a hchannels outside hvis hdly
  obtain ⟨hmem, -⟩ := frameStep_of_samples s
  obtain ⟨vs, hmix⟩ : ∃ vs, (mix s).2.2 = withVoices vs s := ⟨_, mix_state s⟩
  have hfirst : (channelSample 0 (mix s).1 (withVoices vs s)).mem.read a = s.mem.read a :=
    channelSample_read (s := withVoices vs s) (fun _ => hvis) (fun hd => (hdly hd).1)
  rw [hmem]
  rcases hchannels with hmono | hstereo
  · rw [frameSamples_mono hmono, hmix, hfirst]
  · rw [frameSamples_stereo hstereo, hmix]
    refine (channelSample_read (fun h => absurd h Nat.one_ne_zero) fun hd => ?_).trans hfirst
    rw [channelSample_active] at hd
    rw [(channelSample_cursors_active 0 _ hd).2]
    exact (hdly hd).2 hstereo

end Sys2Proof.Machine

/-!
SUPPORT. A render as a whole (45_delay_output.md R531, R532): what some of its frames do, one after another.
-/

namespace Sys2Proof.Machine

/-! ## Some frames of a render -/

/-- `s` with the fields that a frame can change as `t` has them. -/
def withFrameFields (t s : State) : State :=
  { withSampleFields t (withVoices t.voices s) with
    frameCount := t.frameCount
    frameIdx := t.frameIdx
    framesLeft := t.framesLeft
    run := t.run
    stopPending := t.stopPending }

/-- What `n` frames of a render have made of `s`: its words, counters and cursors, and at the end of the render a deferred
STOP. -/
structure FramesRun (n : Nat) (s t : State) : Prop where
  kept : t = withFrameFields t s
  out : ∃ ys, t.out = s.out ++ ys ∧ ys.length = n * s.active.channels.toNat
  frameCount : t.frameCount = s.frameCount + BitVec.ofNat 32 n
  frameIdx : t.frameIdx = s.frameIdx + n
  framesLeft : t.framesLeft + n = s.framesLeft
  visWr : t.visWr = (s.visWr + n) % s.params.visCap
  delayRd : t.delayRd = movedCursor s (n * s.active.channels.toNat) s.delayRd
  delayWr : t.delayWr = movedCursor s (n * s.active.channels.toNat) s.delayWr
  run : t.run = (s.run && !(t.framesLeft == 0 && s.stopPending))
  stopPending : t.stopPending = (s.stopPending && !(t.framesLeft == 0))

theorem frameSamples_visWr {s : State} (hchannels : s.active.channels = 1 ∨ s.active.channels = 2) :
    (frameSamples s).visWr = (s.visWr + 1) % s.params.visCap := by
  rcases hchannels with hmono | hstereo
  · rw [frameSamples_mono hmono, channelSample_visWr, if_pos rfl, mix_state]
    rfl
  · rw [frameSamples_stereo hstereo, channelSample_visWr, if_neg Nat.one_ne_zero, channelSample_visWr, if_pos rfl,
      mix_state]
    rfl

theorem frameSamples_out (s : State) :
    ∃ ys, (frameSamples s).out = s.out ++ ys ∧ ys.length = s.active.channels.toNat := by
  rw [frameSamples_eq, mix_state]
  exact channelSamples_out _ 0 _ _ (withVoices _ s)

theorem framesRun_frameStep {s : State} (hbusy : 0 < s.framesLeft)
    (hchannels : s.active.channels = 1 ∨ s.active.channels = 2) : FramesRun 1 s (frameStep s) := by
  obtain ⟨hrd, hwr⟩ := frameSamples_cursors (channels_pos hchannels)
  have hvis := frameSamples_visWr hchannels
  obtain ⟨ys, hout, hlen⟩ := frameSamples_out s
  rw [frameStep_state]
  exact
    { kept := rfl
      out := ⟨ys, hout, by rw [hlen, Nat.one_mul]⟩
      frameCount := rfl
      frameIdx := rfl
      framesLeft := Nat.sub_add_cancel hbusy
      visWr := hvis
      delayRd := by rw [Nat.one_mul]; exact hrd
      delayWr := by rw [Nat.one_mul]; exact hwr
      run := rfl
      stopPending := rfl }

theorem movedCursor_movedCursor (s : State) (m n c : Nat) :
    movedCursor s n (movedCursor s m c) = movedCursor s (m + n) c := by
  unfold movedCursor
  split
  · rw [Nat.mod_add_mod, Nat.add_assoc]
  · rfl

/-- Frames after frames are the frames of both; a STOP that has taken effect does not again. -/
theorem FramesRun.trans {m n : Nat} {s t u : State} (hst : FramesRun m s t) (htu : FramesRun n t u) :
    FramesRun (m + n) s u := by
  have hkept : u = withFrameFields u s := by
    calc u = withFrameFields u t := htu.kept
      _ = withFrameFields u (withFrameFields t s) := by rw [← hst.kept]
      _ = withFrameFields u s := rfl
  have hactive : t.active = s.active := (congrArg State.active hst.kept :)
  have hparams : t.params = s.params := (congrArg State.params hst.kept :)
  have hmoved (k c : Nat) : movedCursor t k c = movedCursor s k c := by rw [movedCursor, movedCursor, hactive, hparams]
  have hleft : (t.framesLeft == 0) = true → (u.framesLeft == 0) = true := by
    have := htu.framesLeft
    simp only [beq_iff_eq]
    omega
  obtain ⟨ys, hys, hm⟩ := hst.out
  obtain ⟨zs, hzs, hn⟩ := htu.out
  refine
    { kept := hkept
      out := ⟨ys ++ zs, by rw [hzs, hys, List.append_assoc], by rw [List.length_append, hm, hn, hactive, Nat.add_mul]⟩
      frameCount := by rw [htu.frameCount, hst.frameCount, BitVec.ofNat_add, BitVec.add_assoc]
      frameIdx := by rw [htu.frameIdx, hst.frameIdx, Nat.add_assoc]
      framesLeft := by rw [← hst.framesLeft, ← htu.framesLeft]; omega
      visWr := by rw [htu.visWr, hst.visWr, hparams, Nat.mod_add_mod, Nat.add_assoc]
      delayRd := by rw [htu.delayRd, hst.delayRd, hmoved, hactive, movedCursor_movedCursor, Nat.add_mul]
      delayWr := by rw [htu.delayWr, hst.delayWr, hmoved, hactive, movedCursor_movedCursor, Nat.add_mul]
      run := ?run
      stopPending := ?stop }
  case run =>
    rw [htu.run, hst.run, hst.stopPending]
    revert hleft
    generalize (t.framesLeft == 0) = tLast
    generalize (u.framesLeft == 0) = uLast
    generalize s.run = run
    generalize s.stopPending = stop
    revert tLast uLast run stop
    decide
  case stop =>
    rw [htu.stopPending, hst.stopPending]
    revert hleft
    generalize (t.framesLeft == 0) = tLast
    generalize (u.framesLeft == 0) = uLast
    generalize s.stopPending = stop
    revert tLast uLast stop
    decide

/-- As many engine steps as there are frames left run that many frames. -/
theorem framesRun_iterate (n : Nat) {s : State} (hleft : n + 1 ≤ s.framesLeft)
    (hchannels : s.active.channels = 1 ∨ s.active.channels = 2) : FramesRun (n + 1) s (engineStep^[n + 1] s) := by
  induction n generalizing s with
  | zero =>
    rw [Function.iterate_one, engineStep_eq, if_pos (by omega)]
    exact framesRun_frameStep (by omega) hchannels
  | succ n ih =>
    rw [Function.iterate_succ_apply, engineStep_eq s, if_pos (by omega), Nat.add_comm]
    have hfirst := framesRun_frameStep (by omega) hchannels
    have hone := hfirst.framesLeft
    exact hfirst.trans (ih (by omega) (by rwa [frameStep_active]))

/-- Settles O47: the frames one after another; of the whole state they leave what `withFrameFields` leaves. -/
theorem renderAsAWhole : Obligations.RenderAsAWhole := by
  unfold Obligations.RenderAsAWhole
  intro s N hN hpos hchannels c t
  have hrun : FramesRun N s t := by
    obtain ⟨n, rfl⟩ := Nat.exists_eq_add_of_le' hpos
    exact framesRun_iterate n hN.ge hchannels
  have hleft : t.framesLeft = 0 := by have := hrun.framesLeft; omega
  have hend := hrun.run
  have hstop := hrun.stopPending
  rw [hleft, beq_self_eq_true] at hend hstop
  rw [Bool.true_and] at hend
  rw [Bool.not_true, Bool.and_false] at hstop
  refine ⟨hrun.out, hrun.frameCount, hrun.frameIdx, hrun.visWr, hrun.delayRd, hrun.delayWr, hleft, hend, hstop, ?_⟩
  rw [hrun.kept]
  exact ⟨rfl, rfl, rfl, rfl, rfl, rfl, rfl, rfl, rfl, rfl, rfl, rfl⟩

/-! ## Silence -/

theorem f0_finite : fIsFinite f0 = true := by decide

/-- +0.0 times a finite value whose sign bit is clear is +0.0. -/
theorem fmul_f0_right {x : F32} (hx : fIsFinite x = true) (hs : x.msb = false) : fmul x f0 = f0 := by
  rw [fmul_of_finite hx f0_finite, hs, show fmag f0 = 0 from rfl, magUnits_zero, Nat.mul_zero]
  decide

theorem fmul_f0_left {x : F32} (hx : fIsFinite x = true) (hs : x.msb = false) : fmul f0 x = f0 := by
  rw [fmul_of_finite f0_finite hx, hs, show fmag f0 = 0 from rfl, magUnits_zero, Nat.zero_mul]
  decide

/-- A zero of either sign and +0.0 sum to +0.0. -/
theorem fadd_fmul_f0 {x : F32} (hx : fIsFinite x = true) : fadd (fmul x f0) f0 = f0 := by
  have hzero : fmul x f0 = fpack (x.msb != f0.msb) 0 := by
    rw [fmul_of_finite hx f0_finite, show fmag f0 = 0 from rfl, magUnits_zero, Nat.mul_zero]
    congr 1
  rw [hzero]
  cases x.msb <;> decide

theorem fdiv_f0 {x : F32} (hx : fIsFinite x = true) (hs : x.msb = false) (h0 : fvalue x ≠ 0) : fdiv f0 x = f0 := by
  have hzero : roundUnits 0 (magUnits (fmag x)) = 0 := by
    have hexact := roundUnits_exact (y := 0) (magUnits_pos_of_fvalue_ne_zero h0) (Nat.zero_le _)
    rwa [magUnits_zero, Nat.zero_mul] at hexact
  rw [fdiv_of_finite f0_finite hx h0, hs, show fmag f0 = 0 from rfl, magUnits_zero, Nat.zero_mul, hzero]
  decide

theorem fofNat_msb (n : Nat) : (fofNat n).msb = false := msb_fpack _ (roundUnits_lt _ _)

theorem getF_finite_msb {P : Params} {R : Regs} (h : RegsLegal P R) (r : FReg) :
    fIsFinite (R.getF r) = true ∧ (R.getF r).msb = false := by
  obtain ⟨-, htop⟩ := h.floats r
  have hproper := (fregRange_proper r).2
  have hinf : infMag = 0x7F800000 := rfl
  refine ⟨(between_getF h r).finite, ?_⟩
  rw [BitVec.msb_eq_decide, decide_eq_false_iff_not]
  omega

theorem getF_fmul_f0 {P : Params} {R : Regs} (h : RegsLegal P R) (r : FReg) : fmul (R.getF r) f0 = f0 := by
  obtain ⟨hfin, hsign⟩ := getF_finite_msb h r
  exact fmul_f0_right hfin hsign

theorem tanh_f0 : tanh f0 = f0 := tanhProperties.2.1

/-- QUANT of silence is silence. -/
theorem quant_f0 {b : Nat} (hb : b ≤ 24) : quant f0 b = f0 := by
  have hpow : 2 ^ b ≤ 2 ^ 24 := Nat.pow_le_pow_right (by decide) hb
  obtain ⟨hfin, hval⟩ := fofNat_exact hpow
  have hround : froundHa f0 = f0 := by decide
  rw [quant, fmul_f0_left hfin (fofNat_msb _), hround, fdiv_f0 hfin (fofNat_msb _) (by rw [hval]; positivity)]

section
variable {P : Params} {R : Regs} (hR : RegsLegal P R)
include hR

theorem quantStage_f0 : quantStage R f0 = f0 := by
  rw [quantStage]
  split
  · exact quant_f0 hR.quantBits
  · rfl

/-- A silent dry value and a silent delayed word give a silent word (45_delay_output.md R501). -/
theorem delayValue_f0 : delayValue R f0 f0 = f0 := by
  have hmix : fmul R.delayMix f0 = f0 := getF_fmul_f0 hR .delayMix
  have hfeedback : fmul R.delayFeedback f0 = f0 := getF_fmul_f0 hR .delayFeedback
  have hgain : fmul R.delayGain f0 = f0 := getF_fmul_f0 hR .delayGain
  have hdry := between_f1.fsub (lo := 0) (hi := 1) (between_getF hR .delayMix) (by norm_num [fregTop]) (by norm_num)
    rep_zero rep_one
  have hsum : fadd (fmul (fsub f1 R.delayMix) f0) f0 = f0 := fadd_fmul_f0 hdry.finite
  rw [delayValue, hfeedback, hmix, hsum, hgain, tanh_f0]
end

/-- The voices of a block in which none sounds, and their silent mix (44_filter_mix.md R477). -/
theorem mixVoices_quiet (P : Params) (R : Regs) {vs : List Voice} (h : ∀ v ∈ vs, v.sounding = false) (m : F32 × F32) :
    mixVoices P R vs m = (m, vs) := by
  induction vs with
  | nil => rfl
  | cons v vs ih =>
    obtain ⟨hv, hvs⟩ := List.forall_mem_cons.mp h
    rw [mixVoices, hv, if_neg Bool.false_ne_true, ih hvs]

theorem mix_quiet {s : State} (hR : RegsLegal s.params s.active) (h : ∀ v ∈ s.voices, v.sounding = false) :
    mix s = (f0, f0, s) := by
  obtain ⟨hfin, hsign⟩ := getF_finite_msb hR .masterVolume
  have hmaster : fmul f0 s.active.masterVolume = f0 := fmul_f0_left hfin hsign
  rw [mix, mixVoices_quiet _ _ h]
  simp only [hmaster]
  rfl

/-- What makes the channel-samples of a silent frame silent: a silent delay RAM, and legal cursors and registers. -/
structure QuietLine (s : State) : Prop where
  regs : RegsLegal s.params s.active
  wf : s.mem.wf = true
  visCap : s.params.visCap ≤ 0xE000
  visWr : s.visWr < s.params.visCap
  delayRd : s.delayRd < s.params.delayCap
  dly : ∀ i, i < s.params.delayCap → memRead s.mem .dly i = f0

theorem QuietLine.clipValue_f0 {s : State} (h : QuietLine s) : clipValue f0 s = f0 := by
  cases hd : s.active.delayActive with
  | true => rw [clipValue_active hd, h.dly _ h.delayRd, delayValue_f0 h.regs]
  | false => rw [clipValue_bypass hd, tanh_f0]

theorem QuietLine.output_f0 {s : State} (h : QuietLine s) : (output f0 s).1 = f0 := by
  rw [output_value, h.clipValue_f0, quantStage_f0 h.regs]

theorem channelSample_delayRd_lt {s : State} (ch : Nat) (x : F32) (h : s.delayRd < s.params.delayCap) :
    (channelSample ch x s).delayRd < s.params.delayCap := by
  obtain ⟨hrd, -⟩ := channelSample_cursors ch x s
  cases hd : s.active.delayActive with
  | true =>
    rw [(channelSample_cursors_active ch x hd).1]
    exact Nat.mod_lt _ (Nat.zero_lt_of_lt h)
  | false => rwa [hrd, output_bypass hd]

theorem quietLine_channelSample {s : State} (h : QuietLine s) (ch : Nat) : QuietLine (channelSample ch f0 s) where
  regs := by rw [channelSample_params, channelSample_active]; exact h.regs
  wf := channelSample_mem_wf ch h.wf
  visCap := by rw [channelSample_params]; exact h.visCap
  visWr := by rw [channelSample_params]; exact channelSample_visWr_lt ch f0 s h.visWr
  delayRd := by rw [channelSample_params]; exact channelSample_delayRd_lt ch f0 h.delayRd
  dly i hi := by
    rw [channelSample_params] at hi
    rw [channelSample_dly_eq ch f0 h.wf (h.visWr.trans_le h.visCap)]
    split
    · exact h.clipValue_f0
    · exact h.dly i hi

theorem channelSamples_quiet (n ch : Nat) {s : State} (h : QuietLine s) :
    QuietLine (channelSamples n ch f0 f0 s) ∧ (channelSamples n ch f0 f0 s).out = s.out ++ List.replicate n f0 := by
  induction n generalizing ch s with
  | zero => exact ⟨h, (List.append_nil _).symm⟩
  | succ n ih =>
    rw [channelSamples_succ, ite_self]
    obtain ⟨hline, hout⟩ := ih (ch + 1) (quietLine_channelSample h ch)
    refine ⟨hline, ?_⟩
    rw [hout, channelSample_out, h.output_f0, List.append_assoc, List.singleton_append, List.replicate_succ]

/-- Settles O48: MIX is silent because no voice sounds, and then so is each channel-sample. -/
theorem silenceStaysSilent : Obligations.SilenceStaysSilent := by
  unfold Obligations.SilenceStaysSilent
  intro s hP hR hchannels hwf hrd hwr hvis hquiet
  obtain ⟨hvoices, hdly⟩ := hquiet
  obtain ⟨-, -, -, -, hcap, -⟩ := hP
  have hsamples : frameSamples s = channelSamples s.active.channels.toNat 0 f0 f0 s := by
    rw [frameSamples_eq, mix_quiet hR hvoices]
  obtain ⟨hline, hout⟩ := channelSamples_quiet s.active.channels.toNat 0
    (s := s) ⟨hR, hwf, hcap.2.trans (by decide), hvis, hrd, hdly⟩
  rw [← hsamples] at hline hout
  obtain ⟨hmem, hframeOut, -, -, hframeVoices, hparams⟩ := frameStep_of_samples s
  have hkept : (frameSamples s).voices = s.voices := by rw [hsamples, channelSamples_state]; rfl
  refine ⟨hframeOut.trans hout, ?_, ?_⟩
  · rw [hframeVoices, hkept]
    exact hvoices
  · rw [hmem, hparams]
    exact hline.dly

end Sys2Proof.Machine

/-!
SUPPORT. With RETRIG_NEW = 0 no two active voices hold one key (41_voice_allocator.md R307): kept by the events, the
boundary, a frame and a step.
-/

namespace Sys2Proof.Machine

/-- The keys of the active voices are apart. -/
def KeysApart (vs : List Voice) : Prop :=
  ∀ i j (hi : i < vs.length) (hj : j < vs.length),
    vs[i].active = true → vs[j].active = true → vs[i].key = vs[j].key → i = j

theorem oneVoicePerKey_iff (s : State) : OneVoicePerKey s ↔ KeysApart s.voices := by
  constructor
  · intro h i j hi hj hai haj hkey
    rcases Nat.lt_trichotomy i j with hlt | heq | hgt
    · exact absurd (by rw [voice_eq_getElem hi, voice_eq_getElem hj]; exact ⟨hai, haj, hkey⟩) (h i j hlt hj)
    · exact heq
    · exact absurd (by rw [voice_eq_getElem hi, voice_eq_getElem hj]; exact ⟨haj, hai, hkey.symm⟩) (h j i hgt hi)
  · rintro h i j hij hj ⟨hai, haj, hkey⟩
    have hi : i < s.voices.length := hij.trans hj
    rw [voice_eq_getElem hi, voice_eq_getElem hj] at *
    exact hij.ne (h i j hi hj hai haj hkey)

section
variable {vs : List Voice} (h : KeysApart vs)
include h

/-- Changing voices one by one without making one active or giving it another key. -/
theorem keysApart_map {f : Voice → Voice} (hf : ∀ v, (f v).key = v.key ∧ ((f v).active = true → v.active = true)) :
    KeysApart (vs.map f) := by
  intro i j hi hj hai haj hkey
  rw [List.getElem_map] at hai haj hkey
  rw [List.getElem_map, (hf _).1, (hf _).1] at hkey
  exact h i j _ _ ((hf _).2 hai) ((hf _).2 haj) hkey

/-- A voice replaced by one whose key no other active voice holds. -/
theorem keysApart_set {v : Nat} {V : Voice}
    (hother : ∀ u (hu : u < vs.length), vs[u].active = true → vs[u].key = V.key → u = v) : KeysApart (vs.set v V) := by
  intro i j hi hj hai haj hkey
  rw [List.length_set] at hi hj
  rw [List.getElem_set] at hai haj hkey
  rw [List.getElem_set] at hkey
  by_cases hvi : v = i
  · by_cases hvj : v = j
    · exact hvi.symm.trans hvj
    · rw [if_neg hvj] at haj hkey
      rw [if_pos hvi] at hkey
      exact absurd (hother j hj haj hkey.symm).symm hvj
  · rw [if_neg hvi] at hai hkey
    by_cases hvj : v = j
    · rw [if_pos hvj] at hkey
      exact absurd (hother i hi hai hkey).symm hvi
    · rw [if_neg hvj] at haj hkey
      exact h i j hi hj hai haj hkey
end

theorem releaseVoice_key (k : BitVec 7) (v : Voice) :
    (releaseVoice k v).key = v.key ∧ ((releaseVoice k v).active = true → v.active = true) := by
  by_cases hheld : v.active = true ∧ v.key = some k
  · rw [releaseVoice_of_held hheld]
    exact ⟨rfl, fun h => Bool.noConfusion h⟩
  · rw [releaseVoice_of_not_held hheld]
    exact ⟨rfl, id⟩

section
variable {s : State} {k : BitVec 7}

theorem heldVoice_spec {v : Nat} (h : heldVoice s.voices k = some v) :
    ∃ hv : v < s.voices.length, s.voices[v].active = true ∧ s.voices[v].key = some k := by
  obtain ⟨hv, hp, -⟩ := List.findIdx?_eq_some_iff_getElem.mp h
  exact ⟨hv, (holds_iff k _).mp hp⟩

/-- With RETRIG_NEW = 0 no voice but the target of a Note-On holds the key (R301, R302). -/
theorem eq_target_of_holds (hretrig : s.active.retrigNew = false) (h : KeysApart s.voices) {v : Nat}
    (htarget : noteTarget s k = some v) {u : Nat} (hu : u < s.voices.length) (hactive : s.voices[u].active = true)
    (hkey : s.voices[u].key = some k) : u = v := by
  cases hheld : heldVoice s.voices k with
  | some w =>
    obtain ⟨hw, hwactive, hwkey⟩ := heldVoice_spec hheld
    have huw : u = w := h u w hu hw hactive hwactive (hkey.trans hwkey.symm)
    have hwv : w = v := Option.some.inj ((noteTarget_of_held hretrig hheld).symm.trans htarget)
    exact huw.trans hwv
  | none =>
    have hnone := List.findIdx?_eq_none_iff.mp hheld s.voices[u] (List.getElem_mem hu)
    exact absurd ((holds_iff k _).mpr ⟨hactive, hkey⟩) (Bool.not_eq_true _ ▸ hnone)

theorem keysApart_noteOn (vel : BitVec 7) (hretrig : s.active.retrigNew = false) (h : KeysApart s.voices) :
    KeysApart (noteOn k vel s).voices := by
  cases htarget : noteTarget s k with
  | none => rw [noteOn_none htarget]; exact h
  | some v =>
    rw [noteOn_some htarget]
    exact keysApart_set h fun u hu hactive hkey => eq_target_of_holds hretrig h htarget hu hactive hkey
end

theorem keysApart_applyEvent (e : Event) {s : State} (hretrig : s.active.retrigNew = false) (h : KeysApart s.voices) :
    KeysApart (applyEvent e s).voices := by
  cases e with
  | reserved | badData | ccOther => exact h
  | noteOff ch k rv => exact keysApart_map h (releaseVoice_key k)
  | noteOn ch k vel => exact keysApart_noteOn vel hretrig h
  | ccWave ch d => rw [applyEvent, selectWave_voices]; exact h
  | ccLayer ch d => rw [applyEvent, selectLayer_voices]; exact h

/-- The events of a boundary run under the latched configuration (41_voice_allocator.md R300). -/
theorem keysApart_boundary {s : State} (hretrig : s.pend.retrigNew = false) (h : KeysApart s.voices) :
    KeysApart (boundary s).voices := by
  have hboth := drain_induction (Q := fun t => t.active.retrigNew = false ∧ KeysApart t.voices) (fun _ _ ht => ht)
    (fun t e ht => ⟨by rw [applyEvent_active]; exact ht.1, keysApart_applyEvent e ht.1 ht.2⟩)
    s.queue.length (latch s) ⟨hretrig, h⟩
  exact hboth.2

theorem frameStep_voices (s : State) : (frameStep s).voices = s.voices.map fun v =>
    if v.sounding then (voiceStep s.params s.active v).2 else v := by
  have hsamples := (frameStep_of_samples s).2.2.2.2.1
  rw [hsamples, frameSamples_eq, channelSamples_state, mix_state]
  rfl

theorem keysApart_engineStep {s : State} (h : KeysApart s.voices) : KeysApart (engineStep s).voices := by
  rw [engineStep_eq]
  split
  case isFalse => exact h
  case isTrue =>
    rw [frameStep_voices]
    refine keysApart_map h fun v => ?_
    split
    · rw [voiceStep_voice]; exact ⟨rfl, id⟩
    · exact ⟨rfl, id⟩

/-- Settles O58: `KeysApart` is kept by every effect that a step can have. -/
theorem oneVoicePerKeyKept : Obligations.OneVoicePerKeyKept := by
  unfold Obligations.OneVoicePerKeyKept
  intro s t hactive hpend hone hstep
  have happart := (oneVoicePerKey_iff s).mp hone
  obtain ⟨hs, heffect⟩ := step_effect hstep
  cases heffect with
  | access h => exact (oneVoicePerKey_iff t).mpr (by rw [h.voices]; exact happart)
  | reset ht => rw [ht]; exact oneVoicePerKey_resetOf s.params
  | render n h ht =>
    rw [ht]
    exact (oneVoicePerKey_iff _).mpr (keysApart_boundary (s := withHost hs s) hpend happart)
  | event e ht =>
    rw [ht]
    exact (oneVoicePerKey_iff _).mpr (keysApart_applyEvent e (s := withHost hs s) hactive happart)
  | engine ht =>
    rw [ht]
    exact (oneVoicePerKey_iff _).mpr (keysApart_engineStep (s := withHost hs s) happart)

end Sys2Proof.Machine

/-!
SUPPORT. Phases and envelopes stay in their ranges (42_oscillator.md R370, R382, R387, 43_envelope.md R428).
-/

namespace Sys2Proof.Machine

/-! ## Phases -/

theorem isPhase_of_between {x : F32} (h : Between 0 1 x) (hlt : fval x < 1) : IsPhase x :=
  ⟨(fle_iff_fval f0_finite h.finite).mpr (by rw [fval_f0]; exact h.ge),
    (flt_iff_fval h.finite between_f1.finite).mpr (by rw [fval_f1]; exact hlt)⟩

theorem isLevel_of_between {x : F32} (h : Between 0 1 x) : IsLevel x :=
  fle_of_between f0_finite between_f1.finite (by rwa [fval_f0, fval_f1])

/-- A draw is a magnitude below that of 1.0, or −0.0 (00_scope.md R24). -/
theorem isPhase_drawPhase (n : Nat) : IsPhase (drawPhase n) := by
  unfold drawPhase
  split
  case isFalse => decide
  case isTrue h =>
    generalize (Config.phaseDraw n).val = m at h
    have hm : m < 2 ^ 31 := by omega
    have hnan : fIsNaN (fpack false m) = false := fIsNaN_of_finite ((fIsFinite_fpack false hm).mpr (h.trans (by decide)))
    have hkey : fkey (fpack false m) = m := by rw [fkey_eq, msb_fpack false hm, fmag_fpack false hm, signed_false]
    refine ⟨fle_iff.mpr ⟨by decide, hnan, ?_⟩, ?_⟩
    · rw [hkey]
      exact Int.natCast_nonneg m
    · rw [flt, hnan, hkey]
      simp only [show fIsNaN f1 = false by decide, show fkey f1 = 0x3F800000 by decide, Bool.not_false, Bool.true_and,
        decide_eq_true_eq]
      omega

/-- An advance by at most a half: a sum from 1 on has 1 taken off, which leaves at most a half (42_oscillator.md R387). -/
theorem isPhase_phaseAdvance {p dt : F32} (hp : IsPhase p) (hdt : Between 0 (1 / 2) dt) : IsPhase (phaseAdvance p dt) := by
  have hsum : Between 0 (3 / 2) (fadd p dt) :=
    (between_of_isPhase hp).fadd hdt (by norm_num) (by norm_num) rep_zero (by simpa using rep_nat_div (m := 3) (k := 1))
  rw [phaseAdvance]
  split
  case isTrue hwrap =>
    rw [fle_iff_fval between_f1.finite hsum.finite, fval_f1] at hwrap
    have hwrapped : Between 0 (1 / 2) (fsub (fadd p dt) f1) :=
      between_fsub hsum.finite between_f1.finite (by rw [fval_f1]; linarith) (by rw [fval_f1]; linarith [hsum.le])
        rep_zero rep_half
    exact isPhase_of_between (hwrapped.mono le_rfl (by norm_num)) (hwrapped.le.trans_lt (by norm_num))
  case isFalse hbelow =>
    rw [fle_iff_fval between_f1.finite hsum.finite, fval_f1, not_le] at hbelow
    exact isPhase_of_between ⟨hsum.finite, hsum.ge, hbelow.le⟩ hbelow

/-- The vibrato LFO advances by at most an eighth, its rate being at most 1000 and the sample rate at least 8000
(42_oscillator.md R370). -/
theorem isPhase_lfoAdvance {P : Params} {R : Regs} {l : F32} (hP : P.legal) (hR : RegsLegal P R) (hS : StartLegal P R)
    (hl : IsPhase l) : IsPhase (lfoAdvance R l) := by
  have hrate : Between 0 1000 R.vibRate := between_getF hR .vibRate
  have hsr := between_srF hP hS
  have hstep : Between 0 (1 / 2) (fdiv R.vibRate (srF R)) :=
    between_ratio hrate.finite hsr.finite (by linarith [hsr.ge]) (by linarith [hrate.ge])
      (by linarith [hrate.le, hsr.ge]) rep_zero rep_half
  exact isPhase_phaseAdvance hl hstep

/-- Settles O36: each range from the intervals of its operands. -/
theorem phasesStayInRange : Obligations.PhasesStayInRange := by
  unfold Obligations.PhasesStayInRange
  refine ⟨isPhase_drawPhase, fun R f => fclamp_between (by decide) (by decide), fun p dt hp hlo hhi => ?_,
    fun P R l hP hR hS hl => isPhase_lfoAdvance hP hR hS hl⟩
  have hdt := between_of_fle (l := f0) (u := fHalf) (by decide) (by decide) hlo hhi
  rw [fval_f0, fval_fHalf] at hdt
  exact isPhase_phaseAdvance hp hdt

/-! ## The envelope -/

section
variable {P : Params} {R : Regs} (hP : P.legal) (hR : RegsLegal P R) (hS : StartLegal P R) {x : F32}
include hP hR hS

/-- Attack rises, and ends at 1.0 (43_envelope.md R421). -/
theorem envStep_attack_spec (hx : IsLevel x) : IsLevel (envStep R .attack x).2 ∧ fle x (envStep R .attack x).2 = true ∧
    ((envStep R .attack x).1 = .attack ∨ (envStep R .attack x).1 = .decay) := by
  have hlevel := between_of_isLevel hx
  have hattack : Between 0 (2 ^ 16) R.attackS := between_getF hR .attackS
  have hrise := (between_f1.mono (lo := 0) (by norm_num) le_rfl).fdiv_nonneg (between_stageSamples hP hS hattack) rep_one
  have hsum : Between (fval x) 2 (fadd x (fdiv f1 (stageSamples R R.attackS))) :=
    between_fadd hlevel.finite hrise.finite (by linarith [hrise.ge]) (by linarith [hlevel.le, hrise.le])
      ⟨x, hlevel.finite, rfl⟩ (by simp)
  simp only [envStep]
  split
  case isTrue => exact ⟨by decide, hx.2, .inr rfl⟩
  case isFalse hbelow =>
    rw [fle_iff_fval between_f1.finite hsum.finite, fval_f1, not_le] at hbelow
    exact ⟨isLevel_of_between ⟨hsum.finite, hlevel.ge.trans hsum.ge, hbelow.le⟩,
      (fle_iff_fval hlevel.finite hsum.finite).mpr hsum.ge, .inl rfl⟩

/-- Decay falls, and ends at SUSTAIN (43_envelope.md R422). -/
theorem envStep_decay_spec (hx : IsLevel x) : IsLevel (envStep R .decay x).2 ∧
    (fle R.sustain x = true → fle (envStep R .decay x).2 x = true) ∧
    ((envStep R .decay x).1 = .decay ∨ (envStep R .decay x).1 = .sustain) := by
  have hlevel := between_of_isLevel hx
  have hdecay : Between 0 (2 ^ 16) R.decayS := between_getF hR .decayS
  have hsustain : Between 0 1 R.sustain := between_getF hR .sustain
  have hrange := between_f1.fsub hsustain (lo := 0) (hi := 1) (by norm_num) (by norm_num) rep_zero rep_one
  have hfall := hrange.fdiv_nonneg (between_stageSamples hP hS hdecay) rep_one
  have hdiff : Between (-1) (fval x) (fsub x (fdiv (fsub f1 R.sustain) (stageSamples R R.decayS))) :=
    between_fsub hlevel.finite hfall.finite (by linarith [hlevel.ge, hfall.le]) (by linarith [hfall.ge])
      rep_one.neg ⟨x, hlevel.finite, rfl⟩
  simp only [envStep]
  split
  case isTrue => exact ⟨isLevel_of_between hsustain, id, .inr rfl⟩
  case isFalse habove =>
    rw [fle_iff_fval hdiff.finite hsustain.finite, not_le] at habove
    exact ⟨isLevel_of_between ⟨hdiff.finite, hsustain.ge.trans habove.le, hdiff.le.trans hlevel.le⟩,
      fun _ => (fle_iff_fval hdiff.finite hlevel.finite).mpr hdiff.le, .inl rfl⟩

/-- Release falls, and ends in Off at +0.0 (43_envelope.md R424). -/
theorem envStep_release_spec (hx : IsLevel x) : IsLevel (envStep R .release x).2 ∧
    fle (envStep R .release x).2 x = true ∧
    ((envStep R .release x).1 = .release ∨ envStep R .release x = (.off, f0)) := by
  have hlevel := between_of_isLevel hx
  have hrelease : Between 0 (2 ^ 16) R.releaseS := between_getF hR .releaseS
  have hrep : Rep (fval x) := ⟨x, hlevel.finite, rfl⟩
  have hfall : Between 0 (fval x) (fdiv x (stageSamples R R.releaseS)) :=
    Between.fdiv_nonneg ⟨hlevel.finite, hlevel.ge, le_rfl⟩ (between_stageSamples hP hS hrelease) hrep
  have hdiff : Between 0 (fval x) (fsub x (fdiv x (stageSamples R R.releaseS))) :=
    between_fsub hlevel.finite hfall.finite (by linarith [hfall.le]) (by linarith [hfall.ge]) rep_zero hrep
  simp only [envStep]
  split
  case isTrue => exact ⟨by decide, hx.1, .inr rfl⟩
  case isFalse =>
    exact ⟨isLevel_of_between (hdiff.mono le_rfl hlevel.le),
      (fle_iff_fval hdiff.finite hlevel.finite).mpr hdiff.le, .inl rfl⟩

/-- The range of an envelope step from any state, and the value of Off (43_envelope.md R428 (a)). -/
theorem isLevel_envStep (st : EnvState) (hx : IsLevel x) :
    IsLevel (envStep R st x).2 ∧ ((envStep R st x).1 = .off → (envStep R st x).2 = f0) := by
  cases st with
  | attack =>
    obtain ⟨hlevel, -, hstate⟩ := envStep_attack_spec hP hR hS hx
    exact ⟨hlevel, fun hoff => by rw [hoff] at hstate; simp at hstate⟩
  | decay =>
    obtain ⟨hlevel, -, hstate⟩ := envStep_decay_spec hP hR hS hx
    exact ⟨hlevel, fun hoff => by rw [hoff] at hstate; simp at hstate⟩
  | sustain => exact ⟨hx, fun hoff => EnvState.noConfusion hoff⟩
  | release =>
    obtain ⟨hlevel, -, hstate | hstate⟩ := envStep_release_spec hP hR hS hx
    · exact ⟨hlevel, fun hoff => by rw [hoff] at hstate; simp at hstate⟩
    · exact ⟨hlevel, fun _ => congrArg Prod.snd hstate⟩
  | off =>
    have hzero : IsLevel f0 := by decide
    exact ⟨hzero, fun _ => rfl⟩
end

/-- Settles O35: the step of each state, with its rise or its fall between representable bounds. -/
theorem envelopeStep : Obligations.EnvelopeStep := by
  unfold Obligations.EnvelopeStep
  refine ⟨fun R x => ⟨rfl, rfl, rfl, rfl, rfl⟩, fun P R st x hP hR hS hx => ?_⟩
  obtain ⟨hlevel, hoff⟩ := isLevel_envStep hP hR hS st hx
  refine ⟨?transitions, hlevel, hoff, ?attack, ?decay, ?release, ?sustain⟩
  case transitions =>
    cases st with
    | attack => obtain ⟨-, -, h | h⟩ := envStep_attack_spec hP hR hS hx <;> rw [h] <;> decide
    | decay => obtain ⟨-, -, h | h⟩ := envStep_decay_spec hP hR hS hx <;> rw [h] <;> decide
    | sustain | off => simp [envStep]
    | release => obtain h | h := envStep_release R x <;> rw [h] <;> decide
  case attack =>
    rintro rfl
    exact (envStep_attack_spec hP hR hS hx).2.1
  case decay =>
    rintro rfl
    exact (envStep_decay_spec hP hR hS hx).2.1
  case release =>
    rintro rfl
    exact (envStep_release_spec hP hR hS hx).2.1
  case sustain =>
    rintro rfl
    rfl

end Sys2Proof.Machine

/-!
SUPPORT. The slots that a frame advances, and the invariant of 10_state.md R62 over events, frames and steps.
-/

namespace Sys2Proof.Machine

/-! ## The slots after a frame -/

/-- A frame advances the first `n` slots and leaves the others (44_filter_mix.md R472). -/
theorem layerSum_getElem? (R : Regs) (base fcount : F32) (n : Nat) (os : List Osc) (acc : F32) (i : Nat) :
    (layerSum R base fcount n os acc).2[i]? =
      if i < n then os[i]?.map fun o => (oscStep R base o).2 else os[i]? := by
  induction n generalizing os acc i with
  | zero => rfl
  | succ n ih =>
    cases os with
    | nil => rw [List.getElem?_nil, Option.map_none, ite_self]; rfl
    | cons o os =>
      rw [layerSum_succ]
      cases i with
      | zero => rfl
      | succ i =>
        rw [List.getElem?_cons_succ, List.getElem?_cons_succ, ih]
        exact if_congr Nat.succ_lt_succ_iff.symm rfl rfl

theorem Voice.osc_eq_getElem {v : Voice} {o : Nat} (ho : o < v.oscs.length) : v.osc o = v.oscs[o] :=
  List.getD_eq_getElem _ _ ho

theorem voiceStep_osc (P : Params) (R : Regs) {v : Voice} {o : Nat} (ho : o < v.count) (hlen : v.count ≤ v.oscs.length) :
    (voiceStep P R v).2.osc o = (oscStep R v.baseFreq (v.osc o)).2 := by
  have hi : o < v.oscs.length := ho.trans_le hlen
  rw [voiceStep_voice, Voice.osc, List.getD_eq_getElem?_getD, layerSum_getElem?, if_pos ho, Voice.osc_eq_getElem hi,
    List.getElem?_eq_getElem hi]
  rfl

theorem releaseVoice_osc {k : BitVec 7} {v : Voice} (h : v.active = true ∧ v.key = some k) {o : Nat}
    (ho : o < v.oscs.length) : (releaseVoice k v).osc o = { v.osc o with envState := .release } := by
  rw [releaseVoice_of_held h, Voice.osc, List.getD_eq_getElem?_getD, List.getElem?_map, Voice.osc_eq_getElem ho,
    List.getElem?_eq_getElem ho]
  rfl

/-! ## One voice -/

section
variable {P : Params} {v : Voice}

theorem VoiceLegal.count_le (h : VoiceLegal P v) : v.count ≤ v.oscs.length := h.count.2.trans h.oscs.ge

theorem VoiceTuned.level (ht : VoiceTuned v) (h : VoiceLegal P v) : IsLevel (v.osc 0).envValue := by
  obtain ⟨-, -, hlevel, -⟩ := ht 0 h.count.1
  exact hlevel

/-- INIT_VOICE draws the phases and keeps the envelope value of slot 0 for every slot (41_voice_allocator.md R305). -/
theorem voiceTuned_initVoice {R : Regs} (hR : RegsLegal P R) {layer : Nat} (hlayer : layer < P.numPresets)
    (wave : WaveKind) (draws : Nat) (k vel : BitVec 7) (hlevel : IsLevel (v.osc 0).envValue) :
    VoiceTuned (initVoice P R wave layer draws k vel v) := by
  have hcount : (R.preset layer).count.toNat ≤ P.oscMax := (presetLegal_preset hR hlayer).count.2
  intro o ho
  have ho : o < P.oscMax := Nat.lt_of_lt_of_le ho hcount
  rw [initVoice_osc _ _ _ _ _ _ _ _ ho, initVoice_osc _ _ _ _ _ _ _ _ (Nat.zero_lt_of_lt ho)]
  exact ⟨isPhase_drawPhase _, (by decide : IsPhase f0), hlevel, fun hoff => EnvState.noConfusion hoff, rfl, rfl⟩

theorem voiceTuned_releaseVoice (k : BitVec 7) (h : VoiceLegal P v) (ht : VoiceTuned v) :
    VoiceTuned (releaseVoice k v) := by
  by_cases hheld : v.active = true ∧ v.key = some k
  case neg => rwa [releaseVoice_of_not_held hheld]
  case pos =>
    intro o ho
    have hcount : (releaseVoice k v).count = v.count := by rw [releaseVoice_of_held hheld]
    rw [hcount] at ho
    have hi : o < v.oscs.length := ho.trans_le h.count_le
    obtain ⟨hphase, hlfo, hlevel, -, -, hsame⟩ := ht o ho
    rw [releaseVoice_osc hheld hi, releaseVoice_osc hheld (Nat.zero_lt_of_lt hi)]
    exact ⟨hphase, hlfo, hlevel, fun hoff => EnvState.noConfusion hoff, rfl, hsame⟩

theorem isPhase_vibrato {R : Regs} (hP : P.legal) (hR : RegsLegal P R) (hS : StartLegal P R) (f : F32) {o : Osc}
    (h : IsPhase o.lfoPhase) : IsPhase (vibrato R f o).2 := by
  unfold vibrato
  split
  · exact isPhase_lfoAdvance hP hR hS h
  · exact h

/-- The slots of a voice stay alike because an envelope step depends on the envelope and the configuration only. -/
theorem voiceTuned_voiceStep {R : Regs} (hP : P.legal) (hR : RegsLegal P R) (hS : StartLegal P R) (h : VoiceLegal P v)
    (ht : VoiceTuned v) : VoiceTuned (voiceStep P R v).2 := by
  intro o ho
  have hcount : o < v.count := ho
  obtain ⟨hphase, hlfo, hlevel, -, hstate, hvalue⟩ := ht o hcount
  obtain ⟨hlevel', hoff⟩ := isLevel_envStep hP hR hS (v.osc o).envState hlevel
  rw [voiceStep_osc P R hcount h.count_le, voiceStep_osc P R (Nat.zero_lt_of_lt hcount) h.count_le, oscStep_eq, oscStep_eq]
  refine ⟨isPhase_phaseAdvance hphase (between_phaseIncrement _ _), isPhase_vibrato hP hR hS _ hlfo, hlevel', hoff, ?_, ?_⟩
  · dsimp only
    rw [hstate, hvalue]
  · dsimp only
    rw [hstate, hvalue]
end

/-! ## Every step -/

section
variable {s : State} (h : Legal s) (ht : Tuned s)
include h ht

theorem tuned_noteOn (k vel : BitVec 7) : Tuned (noteOn k vel s) := by
  cases htarget : noteTarget s k with
  | none => rw [noteOn_none htarget]; exact ht
  | some v =>
    rw [noteOn_some htarget]
    by_cases hv : v < s.voices.length
    case pos =>
      have hmem : s.voice v ∈ s.voices := by rw [voice_eq_getElem hv]; exact List.getElem_mem hv
      exact forall_mem_set ht (voiceTuned_initVoice h.active h.layerSel _ _ k vel ((ht _ hmem).level (h.voices _ hmem))) v
    case neg =>
      change ∀ x ∈ s.voices.set v _, VoiceTuned x
      rw [List.set_eq_of_length_le (not_lt.mp hv)]
      exact ht

theorem tuned_applyEvent (e : Event) : Tuned (applyEvent e s) := by
  cases e with
  | reserved | badData | ccOther => exact ht
  | noteOff _ k => exact List.forall_mem_map.mpr fun v hv => voiceTuned_releaseVoice k (h.voices v hv) (ht v hv)
  | noteOn _ k vel => exact tuned_noteOn h ht k vel
  | ccWave _ d => rw [Tuned, applyEvent, selectWave_voices]; exact ht
  | ccLayer _ d => rw [Tuned, applyEvent, selectLayer_voices]; exact ht

theorem tuned_drain (n : Nat) : Tuned (drain n s) := by
  induction n generalizing s with
  | zero => exact ht
  | succ n ih =>
    cases hq : s.queue with
    | nil => rwa [drain_nil _ hq]
    | cons e q =>
      have hlen := h.queue
      rw [hq, List.length_cons] at hlen
      have hpopped : Legal (withQueue q s) := legal_withQueue h (by omega)
      rw [drain_cons _ hq]
      exact ih (legal_applyEvent hpopped _) (tuned_applyEvent hpopped ht _)

theorem tuned_boundary : Tuned (boundary s) := tuned_drain (legal_latch h) ht _

/-- A frame runs only while BUSY = 1, when the active rate is one that a START admits. -/
theorem tuned_engineStep : Tuned (engineStep s) := by
  rw [engineStep_eq]
  split
  case isFalse => exact ht
  case isTrue hbusy =>
    obtain ⟨-, hstart⟩ := h.busy (decide_eq_true hbusy)
    rw [Tuned, frameStep_voices]
    refine List.forall_mem_map.mpr fun v hv => ?_
    split
    · exact voiceTuned_voiceStep h.params h.active hstart (h.voices v hv) (ht v hv)
    · exact ht v hv
end

/-- Settles O57: an event initializes or releases slots, a frame advances them, and nothing else reaches them. -/
theorem tunedKept : Obligations.TunedKept := by
  unfold Obligations.TunedKept
  intro s t h ht hstep
  obtain ⟨hs, heffect⟩ := step_effect hstep
  have h' : Legal (withHost hs s) := legal_withHost h hs
  cases heffect with
  | access haccess => rw [Tuned, haccess.voices]; exact ht
  | reset heq => rw [heq]; exact tuned_resetOf s.params
  | render n haccepts heq => rw [heq]; exact tuned_boundary h' ht
  | event e heq => rw [heq]; exact tuned_applyEvent h' ht e
  | engine heq => rw [heq]; exact tuned_engineStep h' ht

end Sys2Proof.Machine

/-!
SUPPORT. What a frame does to the voices, and its mix (42_oscillator.md R389, 44_filter_mix.md R470-R477).
-/

namespace Sys2Proof.Machine

theorem sounding_iff (v : Voice) : v.sounding = true ↔
    (v.active = true ∧ (v.osc 0).envState ≠ .off) ∨ (v.active = false ∧ (v.osc 0).envState = .release) := by
  rw [Voice.sounding, Bool.or_eq_true, Bool.and_eq_true, Bool.and_eq_true, bne_iff_ne, beq_iff_eq, Bool.not_eq_true']
  rfl

/-! ## OSC_STEP -/

/-- GEN reads and writes neither the LFO, the filter, the phase nor the envelope of a slot. -/
theorem generate_filter (R : Regs) (amp dt : F32) (o : Osc) :
    (generate R amp dt o).2.fFast = o.fFast ∧ (generate R amp dt o).2.fSlow = o.fSlow := by
  unfold generate
  split <;> exact ⟨rfl, rfl⟩

/-- SHAPE with the filter's part behind FILTER_EN, for a slot whose filter is that of `o` (44_filter_mix.md R463). -/
theorem shape_eq (R : Regs) {o o1 : Osc} (x : F32) (hfast : o1.fFast = o.fFast) (hslow : o1.fSlow = o.fSlow) :
    let fast := fadd o.fFast (lerpDelta x o.fFast R.filtAFast)
    let slow := fadd o.fSlow (lerpDelta x o.fSlow R.filtASlow)
    shape R o1 x = (tanh (if R.filterEn then fsub fast slow else x),
      { o1 with
        fFast := if R.filterEn then fast else o.fFast
        fSlow := if R.filterEn then slow else o.fSlow }) := by
  rw [← hfast, ← hslow]
  unfold shape
  cases R.filterEn <;> rfl

theorem vibrato_eq (R : Regs) (f : F32) (o : Osc) : vibrato R f o =
    (if flt R.vibOnset o.elapsed then fadd f (fmul R.vibDepth (sinT (lfoAdvance R o.lfoPhase))) else f,
      if flt R.vibOnset o.elapsed then lfoAdvance R o.lfoPhase else o.lfoPhase) := by
  unfold vibrato vibratoOpen
  split <;> rfl

/-- OSC_STEP from the results of its parts. -/
theorem oscStep_of_parts {R : Regs} {base : F32} {o : Osc} {v : F32 × F32} {g y : F32 × Osc}
    (hv : vibrato R (carrier base o) o = v) (hg : generate R (fmul o.vol R.oscGain) (phaseIncrement R v.1) o = g)
    (hy : shape R g.2 (fmul (fmul g.1 (envStep R o.envState o.envValue).2) (tremolo R o.elapsed)) = y) :
    oscStep R base o = (y.1, { y.2 with
      lfoPhase := v.2
      envState := (envStep R o.envState o.envValue).1
      envValue := (envStep R o.envState o.envValue).2
      phase := phaseAdvance o.phase (phaseIncrement R v.1)
      elapsed := fadd o.elapsed (invSr R) }) := by
  rw [oscStep_eq, ← hy, ← hg, ← hv]

/-- OSC_STEP with its vibrato, its filter and its advance written out (42_oscillator.md R389). -/
theorem oscStep_written_out (R : Regs) (base : F32) (o : Osc) :
    let f := carrier base o
    let f := if flt R.vibOnset o.elapsed then fadd f (fmul R.vibDepth (sinT (lfoAdvance R o.lfoPhase))) else f
    let dt := phaseIncrement R f
    let g := generate R (fmul o.vol R.oscGain) dt o
    let e := envStep R o.envState o.envValue
    let x := fmul (fmul g.1 e.2) (tremolo R o.elapsed)
    let fast := fadd o.fFast (lerpDelta x o.fFast R.filtAFast)
    let slow := fadd o.fSlow (lerpDelta x o.fSlow R.filtASlow)
    oscStep R base o =
      (tanh (if R.filterEn then fsub fast slow else x),
        { g.2 with
          lfoPhase := if flt R.vibOnset o.elapsed then lfoAdvance R o.lfoPhase else o.lfoPhase
          envState := e.1
          envValue := e.2
          fFast := if R.filterEn then fast else o.fFast
          fSlow := if R.filterEn then slow else o.fSlow
          phase := phaseAdvance o.phase dt
          elapsed := fadd o.elapsed (invSr R) }) := by
  intro f f' dt g e x fast slow
  obtain ⟨hfast, hslow⟩ := generate_filter R (fmul o.vol R.oscGain) dt o
  exact oscStep_of_parts (vibrato_eq R f o) rfl (shape_eq R x hfast hslow)

/-! ## MIX -/

section
variable (P : Params) (R : Regs)

/-- The layer sum adds up the samples of the first `n` slots in ascending order (44_filter_mix.md R472). -/
theorem layerSum_fst (base fcount : F32) (n : Nat) (os : List Osc) (acc : F32) : (layerSum R base fcount n os acc).1 =
    (os.take n).foldl (fun acc o => fadd acc (fdiv (oscStep R base o).1 fcount)) acc := by
  induction n generalizing os acc with
  | zero => rfl
  | succ n ih =>
    cases os with
    | nil => rfl
    | cons o os => exact ih os _

/-- The contribution of a voice (44_filter_mix.md R473). -/
def contribution (v : Voice) : F32 := (voiceStep P R v).1

theorem contribution_eq (v : Voice) : contribution P R v =
    fdiv (fmul (tanh (fmul v.amplitude ((v.oscs.take v.count).foldl
      (fun acc o => fadd acc (fdiv (oscStep R v.baseFreq o).1 (fofNat v.count))) f0))) R.voiceGain)
      (fofNat P.voiceMax) := by
  rw [← layerSum_fst]
  rfl

variable {R} in
theorem mixIn_mono (h : R.channels = 1) (c : F32) (m : F32 × F32) : mixIn R c m = (fadd m.1 c, m.2) := if_pos h

variable {R} in
theorem mixIn_stereo (h : R.channels = 2) (c : F32) (m : F32 × F32) :
    mixIn R c m = (fadd m.1 (fmul c (panL R)), fadd m.2 (fmul c (panR R))) :=
  if_neg (by rw [h]; decide)

theorem mix_sums (s : State) :
    (mix s).1 = fmul (mixVoices s.params s.active s.voices (f0, f0)).1.1 s.active.masterVolume ∧
    (mix s).2.1 = fmul (mixVoices s.params s.active s.voices (f0, f0)).1.2 s.active.masterVolume := ⟨rfl, rfl⟩

/-- The channel sums of a frame, voice by voice in ascending order; a voice that does not sound is skipped
(44_filter_mix.md R471). -/
theorem mixVoices_fst (vs : List Voice) (m : F32 × F32) : (mixVoices P R vs m).1 =
    vs.foldl (fun m v => if v.sounding then mixIn R (contribution P R v) m else m) m := by
  induction vs generalizing m with
  | nil => rfl
  | cons v vs ih =>
    rw [mixVoices, List.foldl_cons]
    split
    case isTrue => exact ih _
    case isFalse => exact ih _

/-- A channel's sum, for a channel whose part of `mixIn` adds `g` of the contribution. -/
theorem mixVoices_channel (π : F32 × F32 → F32) (g : F32 → F32) (hg : ∀ c m, π (mixIn R c m) = fadd (π m) (g c))
    (vs : List Voice) (m : F32 × F32) : π (mixVoices P R vs m).1 =
      vs.foldl (fun x v => if v.sounding then fadd x (g (contribution P R v)) else x) (π m) := by
  rw [mixVoices_fst]
  refine (List.foldl_hom π fun m v => ?_).symm
  rw [apply_ite π, hg]
end

/-- Settles O38: the parts of OSC_STEP, of MIX and of a frame's voices, each by its lemma. -/
theorem frameAdvancesVoices : Obligations.FrameAdvancesVoices := by
  unfold Obligations.FrameAdvancesVoices
  refine ⟨sounding_iff, fun R base o => ?step, fun s => ?mix, fun s => ⟨?length, fun v hv => ⟨?silent, ?sounds⟩⟩⟩
  case step => exact oscStep_written_out R base o
  case mix =>
    intro R layer c sum
    have hcontribution : contribution s.params R = c := funext (contribution_eq s.params R)
    have hsum (π : F32 × F32 → F32) (g : F32 → F32) (hπ : π (f0, f0) = f0)
        (hg : ∀ c m, π (mixIn R c m) = fadd (π m) (g c)) : π (mixVoices s.params R s.voices (f0, f0)).1 = sum g := by
      rw [mixVoices_channel s.params R π g hg, hcontribution, hπ]
    obtain ⟨hfst, hsnd⟩ := mix_sums s
    rw [hfst, hsnd]
    refine ⟨fun hmono => ?_, fun hstereo => ⟨?_, ?_⟩⟩
    · rw [hsum Prod.fst (fun y => y) rfl fun c m => by rw [mixIn_mono hmono]]
    · rw [hsum Prod.fst (fun y => fmul y (panL R)) rfl fun c m => by rw [mixIn_stereo hstereo]]
      rfl
    · rw [hsum Prod.snd (fun y => fmul y (panR R)) rfl fun c m => by rw [mixIn_stereo hstereo]]
      rfl
  case length => rw [frameStep_voices, List.length_map]
  case silent =>
    intro hsilent
    rw [frameStep_voices, List.getElem?_map, List.getElem?_eq_getElem hv, Option.map_some, hsilent,
      if_neg Bool.false_ne_true]
  case sounds =>
    intro hsounds
    have hvoice : (frameStep s).voices[v]? = some (voiceStep s.params s.active s.voices[v]).2 := by
      rw [frameStep_voices, List.getElem?_map, List.getElem?_eq_getElem hv, Option.map_some, hsounds, if_pos rfl]
    rw [voiceStep_voice] at hvoice
    refine ⟨_, hvoice, layerSum_length .., fun o ho => ⟨fun hcount => ?_, fun hcount => ?_⟩⟩
    · rw [layerSum_getElem?, if_pos hcount, List.getElem?_eq_getElem ho]
      rfl
    · rw [layerSum_getElem?, if_neg hcount, List.getElem?_eq_getElem ho]

end Sys2Proof.Machine

/-!
SUPPORT. The velocity curve (41_voice_allocator.md R306) and the band-limited generators (42_oscillator.md R355-R362).
-/

namespace Sys2Proof.Machine

/-! ## The velocity curve -/

/-- The curve on a segment (41_voice_allocator.md R306). -/
theorem velCurve_of_segment {R : Regs} {vel : BitVec 7} {xa xb : Nat} {ga gb : F32}
    (h : velSegment R vel.toNat = (xa, ga, xb, gb)) : velCurve R vel =
      fclamp (fadd ga (fmul (fsub gb ga) (fdiv (fofNat (vel.toNat - xa)) (fofNat (xb - xa))))) R.velGmin R.velGmax := by
  rw [velCurve, h]

theorem fle_refl {x : F32} (h : fIsNaN x = false) : fle x x = true := fle_iff.mpr ⟨h, h, le_rfl⟩

/-- Clamping between ends the wrong way round gives the second one. -/
theorem fclamp_reversed {x lo hi : F32} (h : fle lo hi = false) : fclamp x lo hi = hi := by
  unfold fclamp fmax
  by_cases hx : fle lo x = true
  · have hnot : ¬ fle x hi = true := fun hxhi => Bool.false_ne_true (h.symm.trans (fle_trans hx hxhi))
    rw [if_pos hx, fmin, if_neg hnot]
  · rw [if_neg hx, fmin, h, if_neg Bool.false_ne_true]

theorem velCurve_eq_fclamp (R : Regs) (vel : BitVec 7) : ∃ x, velCurve R vel = fclamp x R.velGmin R.velGmax :=
  ⟨_, velCurve_of_segment rfl⟩

/-- Settles O34: the three segments, the clamp, and the curve computed at five velocities. -/
theorem velocityCurve : Obligations.VelocityCurve := by
  unfold Obligations.VelocityCurve
  refine ⟨fun R vel => ⟨fun hlo => ?low, fun hlo hhi => ?middle, fun hlo hhi => ?high⟩,
    fun R vel hmin hmax => ?range, fun P => ?reset⟩
  case low => exact velCurve_of_segment (if_pos hlo)
  case middle => exact velCurve_of_segment (by rw [velSegment, if_neg (not_le.mpr hlo), if_pos hhi])
  case high => exact velCurve_of_segment (by rw [velSegment, if_neg (not_le.mpr hlo), if_neg (not_le.mpr hhi)])
  case range =>
    obtain ⟨x, hx⟩ := velCurve_eq_fclamp R vel
    rw [hx]
    exact ⟨fun hle => fclamp_between ⟨fle_refl hmin, hle⟩ ⟨hle, fle_refl hmax⟩, fclamp_reversed⟩
  case reset =>
    have hreference (vel : BitVec 7) : velCurve (resetRegs P) vel = velCurve (resetRegs Params.reference) vel := rfl
    simp only [hreference]
    decide +kernel

/-! ## The kernel -/

theorem not_flt_of_fle {a b : F32} (h : fle a b = true) : ¬ flt b a = true := by
  obtain ⟨-, -, hkey⟩ := fle_iff.mp h
  intro hlt
  rw [flt, Bool.and_eq_true, decide_eq_true_eq] at hlt
  omega

theorem not_fle_of_flt {a b : F32} (h : flt a b = true) : ¬ fle b a = true := fun hle => not_flt_of_fle hle h

/-- The kernel is +0.0 outside its two windows (42_oscillator.md R356). -/
theorem polyBlep_eq_f0 {dt t : F32}
    (h : fle dt f0 = true ∨ (fle dt t = true ∧ fle t (fsub f1 dt) = true)) : polyBlep dt t = f0 := by
  unfold polyBlep
  obtain hzero | ⟨hlo, hhi⟩ := h
  · exact if_pos hzero
  · have hfirst : ¬ flt t dt = true := not_flt_of_fle hlo
    have hlast : ¬ flt (fsub f1 dt) t = true := not_flt_of_fle hhi
    rw [if_neg hfirst, if_neg hlast, ite_self]

theorem polyBlep_zero (t : F32) : polyBlep f0 t = f0 := polyBlep_eq_f0 (.inl (by decide))

/-- +0.0 over a positive finite word is +0.0. -/
theorem fdiv_f0_of_pos {x : F32} (hfin : fIsFinite x = true) (hpos : flt f0 x = true) : fdiv f0 x = f0 := by
  have hval : fvalue f0 < fvalue x := by
    rw [flt_of_finite f0_finite hfin] at hpos
    exact of_decide_eq_true hpos
  rw [fvalue_f0] at hval
  have hsign : x.msb = false := by
    by_contra h
    rw [fvalue_eq, Bool.eq_true_of_not_eq_false h, signed_true] at hval
    omega
  exact fdiv_f0 hfin hsign hval.ne'

/-- At phase 0 the kernel is −1, because its `u` is +0.0 (42_oscillator.md R356). -/
theorem polyBlep_at_zero {dt : F32} (hpos : flt f0 dt = true) (hhalf : fle dt fHalf = true) :
    polyBlep dt f0 = fneg f1 := by
  have hfin : fIsFinite dt = true := fIsFinite_of_between (c := fHalf) (by decide) (fle_of_flt hpos) hhalf
  unfold polyBlep
  rw [if_neg (not_fle_of_flt hpos), if_pos hpos, fdiv_f0_of_pos hfin hpos]
  decide

/-! ## Zero increment -/

/-- Taking +0.0 off leaves a finite word as it is. -/
theorem fsub_f0 {x : F32} (hx : fIsFinite x = true) : fsub x f0 = x := by
  by_cases hzero : fvalue x = 0
  case pos =>
    have hpack := fpack_msb_fmag x
    rw [fvalue_eq_zero.mp hzero] at hpack
    rw [fsub_eq_zero hx f0_finite (by rw [hzero, fvalue_f0, sub_zero]), ← hpack]
    cases x.msb <;> decide
  case neg =>
    obtain ⟨-, hval⟩ := fsub_exact hx f0_finite hx (by rw [fvalue_f0, sub_zero])
    rw [fvalue_f0, sub_zero] at hval
    exact (eq_of_fvalue_eq hval.symm hzero).symm

theorem polySquare_zero (p duty : F32) : polySquare f0 p duty = rawSquare p duty := by
  unfold polySquare rawSquare
  simp only [polyBlep_zero]
  split <;> decide

theorem rawSaw_sub_polyBlep_zero {p : F32} (hp : IsPhase p) : fsub (rawSaw p) (polyBlep f0 p) = rawSaw p := by
  rw [polyBlep_zero, fsub_f0 (absLe_rawSaw (between_of_isPhase hp)).finite]

/-- Settles O37: the formulas as they are defined; with a zero increment every kernel value is +0.0. -/
theorem bandLimiting : Obligations.BandLimiting := by
  unfold Obligations.BandLimiting
  refine ⟨fun dt t => rfl, fun R amp dt o => ?generators, fun dt t => polyBlep_eq_f0, fun dt => polyBlep_at_zero,
    fun R amp o hp => ⟨?pulse, ?saw⟩⟩
  case generators =>
    cases o
    intro p q t2 sq saw integ yn
    refine ⟨?_, ?_, ?_, ?_, ?_, ?_, ?_⟩
    all_goals
      rintro ⟨⟩
      rfl
  case pulse => exact congrArg (fmul amp) (polySquare_zero o.phase o.duty)
  case saw => exact congrArg (fmul amp) (rawSaw_sub_polyBlep_zero hp)

end Sys2Proof.Machine
